-- ==== Sys2Proof/Word.lean ====
section
/-! DEFINITION. The units of data of the frame engine: the byte, the 16-bit DataWord, and the two
fixed groups of bytes the rules move as one thing (the 3-byte command code, the 2-byte checksum field). -/

namespace Sys2Proof

/-- An unsigned 8-bit value (R10). -/
abbrev Byte := BitVec 8

/-- A DataWord, an unsigned 16-bit value (R10, R12). -/
abbrev Word := BitVec 16

/-- A command code: the three bytes of a CMD field, lowest frame index first (R93). -/
structure Cmd where
  b0 : Byte
  b1 : Byte
  b2 : Byte
deriving DecidableEq, Repr, Inhabited

/-- The code `[0x00, 0x00, 0x00]`, the reset value of `last_cmd` and `res_cmd` (R43). -/
def Cmd.zero : Cmd := ⟨0x00, 0x00, 0x00⟩

/-- The three bytes in frame order. -/
def Cmd.toList (k : Cmd) : List Byte := [k.b0, k.b1, k.b2]

/-- The two characters of a CHK field, the one at the lower frame index first (R95). -/
structure CharPair where
  first : Byte
  second : Byte
deriving DecidableEq, Repr, Inhabited

/-- The pair `[0x00, 0x00]`, the reset value of `res_chk_calc` and `res_chk_recv` (R43). -/
def CharPair.zero : CharPair := ⟨0x00, 0x00⟩

/-- The two characters in frame order. -/
def CharPair.toList (p : CharPair) : List Byte := [p.first, p.second]

end Sys2Proof
end

