-- ==== Sys2Proof/Config.lean ====
section
/-! DEFINITION. The constants (R7) and the parameters (R8) of the block. The parameters are
arguments of every operation, with `Config.spec`, the values the spec takes, as their default; no event
changes one (R40). What the host side takes as configuration (R300) stands beside them. What the spec leaves OPEN stands here as a constant without a body. -/

namespace Sys2Proof

/-- STX, the byte that starts a frame (R7). -/
def STX : Byte := 0x02
/-- ETX, the byte that ends the payload (R7). -/
def ETX : Byte := 0x03
/-- CR, the byte that ends a frame (R7). -/
def CR : Byte := 0x0D

/-- The error sentinel "hxx" (R7, R109). -/
def sentinel : Cmd := ⟨0x68, 0x78, 0x78⟩

/-- One row of `CATALOG`: a lowercase command code and the exact DATA length in bytes of its
response (R210). -/
structure CatalogRow where
  code : Cmd
  size : Nat
deriving DecidableEq, Repr

/-- One row of `ERRTAB`: a device error code and its message (R240). -/
structure ErrorRow where
  code : Nat
  message : String
deriving DecidableEq, Repr

/-- What the transport, outside the block, does with a byte that has a line error (R8, R361). -/
inductive LineErrorPolicy where
  | dropped
  | delivered
  | flagged
deriving DecidableEq, Repr, Inhabited

/-- The source's ConversionFactor: the constants of UnitConverter, exact rationals (R300). The temperature
mapping is `(x · temperatureGain − temperatureOffset) / temperatureDivisor`. -/
structure ConversionFactor where
  /-- volts per unit -/
  voltage : ℚ
  /-- amps per unit -/
  current : ℚ
  /-- the first coefficient factor (R308) -/
  firstCoefficient : ℚ
  /-- the second coefficient factor (R308) -/
  secondCoefficient : ℚ
  temperatureGain : ℚ
  temperatureOffset : ℚ
  temperatureDivisor : ℚ
deriving DecidableEq

/-- The raw ranges of the temperature-correction parameters (R308), bounds inclusive. -/
structure CorrectionBounds where
  firstLow : Word
  firstHigh : Word
  slopeLow : Word
  slopeHigh : Word
deriving DecidableEq, Repr

/-- How the host queries the reference voltage Vb before an HST: the command and the DATA bytes of the
request, and which word of the answer is the raw Vb (R316, N13). -/
structure VbQuery where
  cmd : Cmd
  payload : List Byte
  word : Fin 6
deriving DecidableEq, Repr, Inhabited

/-- The parameters of R8, and what the host side takes as configuration (R300, U24 to U27). `baud`,
`stopBits` and `lineErrorPolicy` belong to the transport, and the fields from `round` on to the host: no
rule of the block reads them. `ROUND` is a function, so a configuration is no plain data; no field of
`State` is one (R40). -/
structure Config where
  rxCap : Nat
  txMaxData : Nat
  rxKeepPreamble : Bool
  chkCaseStrict : Bool
  rxHexAcceptLower : Bool
  echoCheck : Bool
  catalog : List CatalogRow
  errtab : List ErrorRow
  baud : Nat
  stopBits : Nat
  lineErrorPolicy : LineErrorPolicy
  /-- `ROUND` (R307) -/
  round : ℚ → ℤ
  powerReadCmd : Cmd
  factors : ConversionFactor
  bounds : CorrectionBounds
  vbQuery : VbQuery
  /-- The order of the six words of the HST payload (R316, N14): place `i` of the payload holds the word
  number `hstOrder i` of the list (dT1_s, dT2_s, dT1, dT2, tb, Vb). -/
  hstOrder : Equiv.Perm (Fin 6)

/-- `TX_CAP` = `8 + TX_MAX_DATA` (R8). -/
def Config.txCap (c : Config) : Nat := 8 + c.txMaxData

/-- `STOP_BITS`, OPEN in the spec (R8, D22): a free value, log entry 3. -/
opaque Config.openStopBits : Nat

/-- `LINE_ERROR_POLICY`, OPEN in the spec (R8, D22): a free value, log entry 3. -/
opaque Config.openLineErrorPolicy : LineErrorPolicy

/-- `POWER_READ_CMD`, OPEN in the spec (R8, R317, D28): a free value, log entry 4. -/
opaque Config.openPowerReadCmd : Cmd

/-- `ROUND`, how the host makes an inverse conversion an integer; OPEN in the spec (R8, R307, D35): a
free value, log entry 4. -/
opaque Config.openRound : ℚ → ℤ

/-- The query of Vb. The source names no command, no payload and no word of the answer (R316, N13): all
three are free values, log entry 5. -/
opaque Config.openVbQuery : VbQuery

/-- The order of the words of the HST payload, which the source does not state (R316, N14, U25): a free
value, log entry 5. -/
opaque Config.openHstOrder : Equiv.Perm (Fin 6)

/-- The source's literals, unaudited (R300, U27). -/
def ConversionFactor.source : ConversionFactor where
  voltage := 1812 / 1000000
  current := 498 / 100000
  firstCoefficient := 5225 / 100000
  secondCoefficient := 1507 / 1000000
  temperatureGain := 1907 / 100000000
  temperatureOffset := 1035 / 1000
  temperatureDivisor := -55 / 10000

/-- The source's sub-range bounds (R308, U27). -/
def CorrectionBounds.source : CorrectionBounds where
  firstLow := 0x0000
  firstHigh := 0x0FFF
  slopeLow := 0x03E8
  slopeHigh := 0xFC18

/-- The 15 rows of the source's catalog, in its order (R107, R210). -/
def sourceCatalog : List CatalogRow :=
  [⟨⟨0x68, 0x78, 0x78⟩, 4⟩,    -- hxx
   ⟨⟨0x68, 0x70, 0x6F⟩, 20⟩,   -- hpo
   ⟨⟨0x68, 0x73, 0x74⟩, 24⟩,   -- hst
   ⟨⟨0x68, 0x72, 0x74⟩, 24⟩,   -- hrt
   ⟨⟨0x68, 0x6F, 0x66⟩, 0⟩,    -- hof
   ⟨⟨0x68, 0x6F, 0x6E⟩, 0⟩,    -- hon
   ⟨⟨0x68, 0x63, 0x6D⟩, 0⟩,    -- hcm
   ⟨⟨0x68, 0x72, 0x65⟩, 0⟩,    -- hre
   ⟨⟨0x68, 0x62, 0x76⟩, 0⟩,    -- hbv
   ⟨⟨0x68, 0x67, 0x74⟩, 4⟩,    -- hgt
   ⟨⟨0x68, 0x67, 0x76⟩, 4⟩,    -- hgv
   ⟨⟨0x68, 0x67, 0x63⟩, 4⟩,    -- hgc
   ⟨⟨0x68, 0x67, 0x73⟩, 4⟩,    -- hgs
   ⟨⟨0x68, 0x73, 0x63⟩, 0⟩,    -- hsc
   ⟨⟨0x68, 0x72, 0x63⟩, 4⟩]    -- hrc

/-- The seven rows of the source's error table (R241 to R247, spelled as R250 requires). -/
def sourceErrtab : List ErrorRow :=
  [⟨1, "UART Communication Error"⟩,
   ⟨2, "Timeout Error"⟩,
   ⟨3, "Syntax Error"⟩,
   ⟨4, "Checksum Error"⟩,
   ⟨5, "Command Error"⟩,
   ⟨6, "Parameter Error"⟩,
   ⟨7, "Parameter Size Error"⟩]

/-- The parameters with the values the spec takes (R8). -/
def Config.spec : Config where
  rxCap := 32
  txMaxData := 24
  rxKeepPreamble := false
  chkCaseStrict := true
  rxHexAcceptLower := true
  echoCheck := true
  catalog := sourceCatalog
  errtab := sourceErrtab
  baud := 9600
  stopBits := Config.openStopBits
  lineErrorPolicy := Config.openLineErrorPolicy
  round := Config.openRound
  powerReadCmd := Config.openPowerReadCmd
  factors := ConversionFactor.source
  bounds := CorrectionBounds.source
  vbQuery := Config.openVbQuery
  hstOrder := Config.openHstOrder

/-- A byte that is a lowercase ASCII letter (R96). -/
def isLowerLetter (b : Byte) : Bool := decide (0x61 ≤ b.toNat) && decide (b.toNat ≤ 0x7A)

/-- What every catalog instance must satisfy (R228, R66; the bound 24 is R39's range of an entry, the
six registers of R33): keys of three lowercase letters, distinct; every size a multiple of 4, at most 24
and at most `RX_CAP` - 8; "hxx" present with size 4. -/
def Config.catalogOk (c : Config) : Bool :=
  c.catalog.all (fun r => isLowerLetter r.code.b0 && isLowerLetter r.code.b1 && isLowerLetter r.code.b2
      && decide (r.size % 4 = 0) && decide (r.size ≤ 24) && decide (8 + r.size ≤ c.rxCap))
    && decide (c.catalog.map CatalogRow.code).Nodup
    && c.catalog.contains ⟨sentinel, 4⟩

/-- The configurations R8 and R228 admit: `RX_CAP` at least 32, `TX_MAX_DATA` at least 24, a
well-formed catalog, and error messages for exactly the codes 1 to 7. -/
def Config.wf (c : Config) : Bool :=
  decide (32 ≤ c.rxCap) && decide (24 ≤ c.txMaxData) && c.catalogOk
    && decide (c.errtab.map ErrorRow.code = [1, 2, 3, 4, 5, 6, 7])

end Sys2Proof
end

