-- ==== Sys2Proof/Syntax.lean ====
section
/-! DEFINITION. The instructions: one constructor for each of the 67 rows of spec/opcode_table.json,
and the types of their operands. "Instruction" has the meaning R9 gives it: a byte event, a frame
operation, a command code, and (as the table has them) a hex digit, an error code and the frame itself. -/

namespace Sys2Proof

/-- The three states of the recognizer, `rx_state` (R22). -/
inductive RxState where
  | awaitingStart
  | awaitingEnd
  | awaitingTerminator
deriving DecidableEq, Repr, Inhabited

/-- The three forms of a request payload (R132). -/
inductive Payload where
  | raw (bs : List Byte)
  | word (w : Word)
  | words (ws : List Word)
deriving DecidableEq, Repr, Inhabited

/-- The case of the three letters of a command code as written, `true` for a lowercase letter: the
three bits (21, 13 and 5) that the mask 0xDFDFDF leaves free (R106). -/
structure Spelling where
  low0 : Bool
  low1 : Bool
  low2 : Bool
deriving DecidableEq, Repr, Inhabited

/-- The two places where a command code is presented: in a request, with its payload (R261), and as
the CMD field of a received frame, which the dispatcher looks up (R212). -/
inductive CmdUse where
  | request (p : Payload)
  | dispatch
deriving DecidableEq, Repr, Inhabited

/-- What DECODE is applied to: the received frame `rx_buf[0:rx_len]` with `rx_ovf`, or, as a pure
function, any byte sequence (R180). -/
inductive DecodeArg where
  | received
  | bytes (f : List Byte)
deriving DecidableEq, Repr, Inhabited

/-- One instruction per row of the opcode table, in the table's order. -/
inductive Instr where
  /-- FRAME (R90). -/
  | frame (cmd : Cmd) (data : List Byte)
  -- the 15 command codes (R213 to R227)
  | hxx (sp : Spelling) (u : CmdUse)
  | hpo (sp : Spelling) (u : CmdUse)
  | hst (sp : Spelling) (u : CmdUse)
  | hrt (sp : Spelling) (u : CmdUse)
  | hof (sp : Spelling) (u : CmdUse)
  | hon (sp : Spelling) (u : CmdUse)
  | hcm (sp : Spelling) (u : CmdUse)
  | hre (sp : Spelling) (u : CmdUse)
  | hbv (sp : Spelling) (u : CmdUse)
  | hgt (sp : Spelling) (u : CmdUse)
  | hgv (sp : Spelling) (u : CmdUse)
  | hgc (sp : Spelling) (u : CmdUse)
  | hgs (sp : Spelling) (u : CmdUse)
  | hsc (sp : Spelling) (u : CmdUse)
  | hrc (sp : Spelling) (u : CmdUse)
  -- the twelve transitions of the recognizer (R152 to R163)
  | rxStartStx
  | rxStartEtx
  | rxStartCr
  | rxStartOther (b : Byte)
  | rxEndStx
  | rxEndEtx
  | rxEndCr
  | rxEndOther (b : Byte)
  | rxTermCr
  | rxTermStx
  | rxTermEtx
  | rxTermOther (b : Byte)
  -- the hex digits (R100)
  | hex0
  | hex1
  | hex2
  | hex3
  | hex4
  | hex5
  | hex6
  | hex7
  | hex8
  | hex9
  | hexA
  | hexB
  | hexC
  | hexD
  | hexE
  | hexF
  | hexLowA
  | hexLowB
  | hexLowC
  | hexLowD
  | hexLowE
  | hexLowF
  | hexNone (b : Byte)
  -- the error codes (R241 to R247, R249)
  | err1
  | err2
  | err3
  | err4
  | err5
  | err6
  | err7
  | errUnmapped (e : Word)
  -- the frame operations
  /-- ENCODE (R134). -/
  | encode (cmd : Cmd) (p : Payload)
  /-- SEND (R137). -/
  | send
  /-- READFRAME (R164). -/
  | readframe
  /-- DECODE (R198). -/
  | decode (arg : DecodeArg)
  /-- CLASSIFY (R270). -/
  | classify
  /-- EXCHANGE (R262). -/
  | exchange (cmd : Cmd) (p : Payload)
  /-- DEADLINE (R277). -/
  | deadline
  /-- RESET (R279). -/
  | reset
deriving DecidableEq, Repr

/-- The 15 command codes, in the order of the source's listing (R107). -/
inductive Command where
  | hxx | hpo | hst | hrt | hof | hon | hcm | hre | hbv | hgt | hgv | hgc | hgs | hsc | hrc
deriving DecidableEq, Repr, Inhabited

end Sys2Proof
end

