-- ==== Sys2Proof/Machine/Operands.lean ====
section
/-! DEFINITION. The pure functions of the block: character codes, hex conversion, checksum, byte
classes (R98 to R105), the DATA bytes of a payload (R132), the catalog and the error table
(R210 to R212, R240, R249). -/

namespace Sys2Proof.Machine

/-! ## Characters (R96 to R98) -/

/-- `upper(c)` on one byte (R98). -/
def upperByte (b : Byte) : Byte :=
  if 0x61 ≤ b.toNat ∧ b.toNat ≤ 0x7A then b - 0x20 else b

/-- `lower(c)` on one byte (R98). -/
def lowerByte (b : Byte) : Byte :=
  if 0x41 ≤ b.toNat ∧ b.toNat ≤ 0x5A then b + 0x20 else b

/-- `upper` on the three bytes of a command code (R98, R131). -/
def upperCmd (k : Cmd) : Cmd := ⟨upperByte k.b0, upperByte k.b1, upperByte k.b2⟩

/-- `lower` on the three bytes of a command code (R98, R188). -/
def lowerCmd (k : Cmd) : Cmd := ⟨lowerByte k.b0, lowerByte k.b1, lowerByte k.b2⟩

/-! ## Hex conversion (R99 to R102) -/

/-- `hexchar(d)`, the uppercase hex digit of `d` in 0..15 (R99). -/
def hexChar (d : Nat) : Byte :=
  if d ≤ 9 then BitVec.ofNat 8 (0x30 + d) else BitVec.ofNat 8 (0x41 + (d - 10))

/-- `hexval(c)`, the digit value of a hex character, or none (R100). -/
def hexVal (c : Config) (b : Byte) : Option Nat :=
  if 0x30 ≤ b.toNat ∧ b.toNat ≤ 0x39 then some (b.toNat - 0x30)
  else if 0x41 ≤ b.toNat ∧ b.toNat ≤ 0x46 then some (b.toNat - 0x41 + 10)
  else if 0x61 ≤ b.toNat ∧ b.toNat ≤ 0x66 ∧ c.rxHexAcceptLower = true then some (b.toNat - 0x61 + 10)
  else none

/-- `v[4i+3:4i]`, hex digit number `i` of a natural, digit 0 the least significant (R10). -/
def nibble (v i : Nat) : Nat := v / 16 ^ i % 16

/-- `hex2(v)` (R101). -/
def hexPair (v : Byte) : CharPair := ⟨hexChar (nibble v.toNat 1), hexChar (nibble v.toNat 0)⟩

/-- `hex4(w)`, the most significant digit first (R60, R101). -/
def hexWord (w : Word) : List Byte :=
  [hexChar (nibble w.toNat 3), hexChar (nibble w.toNat 2),
   hexChar (nibble w.toNat 1), hexChar (nibble w.toNat 0)]

/-- `unhex2(g)` (R102). -/
def unhexPair (c : Config) (g : CharPair) : Option Byte :=
  match hexVal c g.first, hexVal c g.second with
  | some d1, some d0 => some (BitVec.ofNat 8 (16 * d1 + d0))
  | _, _ => none

/-- `unhex4(g)` on the four characters of a group (R102, R103). -/
def unhexWord (c : Config) (g3 g2 g1 g0 : Byte) : Option Word :=
  match hexVal c g3, hexVal c g2, hexVal c g1, hexVal c g0 with
  | some d3, some d2, some d1, some d0 =>
    some (BitVec.ofNat 16 (4096 * d3 + 256 * d2 + 16 * d1 + d0))
  | _, _, _, _ => none

/-- The DataWords of a DATA field, cut into groups of four characters from its start; none when a
character is no hex digit (R66, R194, R195). A short last group cannot occur under a well-formed catalog. -/
def parseWords (c : Config) : List Byte → Option (List Word)
  | [] => some []
  | g3 :: g2 :: g1 :: g0 :: rest =>
    match unhexWord c g3 g2 g1 g0, parseWords c rest with
    | some w, some ws => some (w :: ws)
    | _, _ => none
  | _ => none

/-! ## Checksum (R104) -/

/-- `chk(s)`, the sum of the bytes modulo 256 (R104). -/
def chk (s : List Byte) : Byte := BitVec.ofNat 8 (s.map BitVec.toNat).sum

/-! ## Byte classes (R105) -/

/-- The four classes of a received byte (R105). -/
inductive ByteClass where
  | stx
  | etx
  | cr
  | other
deriving DecidableEq, Repr

/-- The class of a byte, by exact match of all 8 bits (R105). -/
def byteClass (b : Byte) : ByteClass :=
  if b = STX then .stx else if b = ETX then .etx else if b = CR then .cr else .other

/-! ## Slices of a frame (R10, R64, R181) -/

/-- `f[i]`. Every rule reads an index below `len(f)`; above it this gives 0 (R184). -/
def byteAt (f : List Byte) (i : Nat) : Byte := f.getD i 0

/-- `f[i:j]`, the half-open slice (R10). -/
def slice (f : List Byte) (i j : Nat) : List Byte := (f.drop i).take (j - i)

/-- CMD, `f[1:4]` (R181). -/
def cmdField (f : List Byte) : Cmd := ⟨byteAt f 1, byteAt f 2, byteAt f 3⟩

/-- CHK, `f[L-3:L-1]` (R181). -/
def chkField (f : List Byte) : CharPair := ⟨byteAt f (f.length - 3), byteAt f (f.length - 2)⟩

/-- DATA, `f[4:L-4]` (R189). -/
def dataField (f : List Byte) : List Byte := slice f 4 (f.length - 4)

/-! ## Payloads (R132) -/

/-- `data_bytes(payload)`, the DATA field a payload gives (R132). -/
def dataBytes : Payload → List Byte
  | .raw bs => bs
  | .word w => hexWord w
  | .words ws => ws.flatMap hexWord

/-! ## The frame (R64, R90, R134) -/

/-- STX, CMD, DATA, ETX: the bytes the checksum is computed over (R95, R135). -/
def frameBody (k : Cmd) (data : List Byte) : List Byte := STX :: k.toList ++ data ++ [ETX]

/-- The frame of a command field and a DATA field: the body, its checksum in two characters, CR
(R64, R90, R95). -/
def frameBytes (k : Cmd) (data : List Byte) : List Byte :=
  frameBody k data ++ (hexPair (chk (frameBody k data))).toList ++ [CR]

/-! ## The catalog (R210 to R212) -/

/-- `size(k)` for a lowercase code `k`; none when `k` is not in `CATALOG` (R210). -/
def catalogSize (c : Config) (k : Cmd) : Option Nat :=
  (c.catalog.find? (fun r => r.code == k)).map CatalogRow.size

/-- `frameSize` of a code whose DATA length is `n` (R211). -/
def frameSizeOf (n : Nat) : Nat := 8 + n

/-- `nwords` of a code whose DATA length is `n` (R211). -/
def nwordsOf (n : Nat) : Nat := n / 4

/-- What the dispatcher reports of a CMD field: the code in lowercase and, when it is in the catalog,
its DATA length, frame size and number of words (R212; the three facts of 43_command_catalog.md). -/
structure CatalogEntry where
  code : Cmd
  size : Nat
  frameSize : Nat
  nwords : Nat
deriving DecidableEq, Repr

/-- The dispatcher's lookup of the three CMD bytes of a received frame (R212). -/
def dispatchLookup (c : Config) (k : Cmd) : Option CatalogEntry :=
  (catalogSize c (lowerCmd k)).map
    (fun n => ⟨lowerCmd k, n, frameSizeOf n, nwordsOf n⟩)

/-! ## The error table (R240, R249, R250) -/

/-- The index `res_msg` of an error code: the code itself in 1..7, else 0 (R34, R249). -/
def msgIndex (e : Word) : Nat := if 1 ≤ e.toNat ∧ e.toNat ≤ 7 then e.toNat else 0

/-- `errmsg(e)`, the message of an error code, or none (R240, R249). -/
def errMsg (c : Config) (e : Word) : Option String :=
  (c.errtab.find? (fun r => r.code == e.toNat)).map ErrorRow.message

end Sys2Proof.Machine
end

