-- ==== Sys2Proof/WellFormed.lean ====
section
/-! DEFINITION. Which instructions are well formed: the operand of a row that stands for "every other
value" is such a value (R105, R100, R249), and EXCHANGE stands for the requests whose code has no row
of its own (log entry 8). Every other constructor takes every value of its operands. -/

namespace Sys2Proof

/-- Whether the three bytes are one of the 15 codes in any case (R106: the code in lowercase is a key of
the source's table). -/
def isSourceCode (k : Cmd) : Bool :=
  (sourceCatalog.map CatalogRow.code).contains (Machine.lowerCmd k)

/-- The well-formedness of an instruction, under the parameters `c`. -/
def Instr.wf (i : Instr) (c : Config := Config.spec) : Bool :=
  match i with
  | .rxStartOther b => decide (Machine.byteClass b = .other)
  | .rxEndOther b => decide (Machine.byteClass b = .other)
  | .rxTermOther b => decide (Machine.byteClass b = .other)
  | .hexNone b => (Machine.hexVal c b).isNone
  | .hexLowA => c.rxHexAcceptLower
  | .hexLowB => c.rxHexAcceptLower
  | .hexLowC => c.rxHexAcceptLower
  | .hexLowD => c.rxHexAcceptLower
  | .hexLowE => c.rxHexAcceptLower
  | .hexLowF => c.rxHexAcceptLower
  | .errUnmapped e => decide (Machine.msgIndex e = 0)
  | .exchange k _ => !isSourceCode k
  | .frame _ _ => true
  | .hxx _ _ => true
  | .hpo _ _ => true
  | .hst _ _ => true
  | .hrt _ _ => true
  | .hof _ _ => true
  | .hon _ _ => true
  | .hcm _ _ => true
  | .hre _ _ => true
  | .hbv _ _ => true
  | .hgt _ _ => true
  | .hgv _ _ => true
  | .hgc _ _ => true
  | .hgs _ _ => true
  | .hsc _ _ => true
  | .hrc _ _ => true
  | .rxStartStx => true
  | .rxStartEtx => true
  | .rxStartCr => true
  | .rxEndStx => true
  | .rxEndEtx => true
  | .rxEndCr => true
  | .rxTermCr => true
  | .rxTermStx => true
  | .rxTermEtx => true
  | .hex0 => true
  | .hex1 => true
  | .hex2 => true
  | .hex3 => true
  | .hex4 => true
  | .hex5 => true
  | .hex6 => true
  | .hex7 => true
  | .hex8 => true
  | .hex9 => true
  | .hexA => true
  | .hexB => true
  | .hexC => true
  | .hexD => true
  | .hexE => true
  | .hexF => true
  | .err1 => true
  | .err2 => true
  | .err3 => true
  | .err4 => true
  | .err5 => true
  | .err6 => true
  | .err7 => true
  | .encode _ _ => true
  | .send => true
  | .readframe => true
  | .decode _ => true
  | .classify => true
  | .deadline => true
  | .reset => true

end Sys2Proof
end

