-- ==== Sys2Proof/Decode.lean ====
section
/-! DEFINITION. The codes in which an instruction is presented to the block, the decoder, total on
every code and rejecting by name, and after it the encoder. The formats are those of
spec/opcode_table.json: FRAME, CMD24, BYTE8, HEXDIGIT8, ERRCODE16, and the operations that have no
encoding and are presented as an event or a call. -/

namespace Sys2Proof

/-- One code, as it is presented to the decoder. -/
inductive Code where
  /-- The event `Reset` (R279). -/
  | resetEvent
  /-- The event `Deadline` (R277). -/
  | deadlineEvent
  /-- The event `TxReady` (R137). -/
  | txReadyEvent
  /-- The internal event `Tau` (R270). -/
  | tauEvent
  /-- The event `Rx(b)` with the state the recognizer is in: format BYTE8 (R105, R164). -/
  | byte8 (st : RxState) (b : Byte)
  /-- A 24-bit CMD field, frame[1] in bits 23:16, frame[2] in bits 15:8, frame[3] in bits 7:0, in a
  request or before the dispatcher: format CMD24 (R106). -/
  | cmd24 (w : BitVec 24) (u : CmdUse)
  /-- A character of a DATA or CHK field: format HEXDIGIT8 (R100). -/
  | hexdigit8 (b : Byte)
  /-- The DataWord of an error frame: format ERRCODE16 (R240). -/
  | errcode16 (e : Word)
  /-- A whole frame, lowest index first: format FRAME (R90). -/
  | frameCode (f : List Byte)
  /-- A call of ENCODE (R134). -/
  | encodeCall (k : Cmd) (p : Payload)
  /-- A call of READFRAME (R150). -/
  | readframeCall
  /-- A call of DECODE (R198). -/
  | decodeCall (arg : DecodeArg)
deriving DecidableEq, Repr

/-- Why a code is no instruction. -/
inductive Reject where
  /-- A CMD field before the dispatcher that is none of the 15 codes (R108, R212). -/
  | unknownCommand
  /-- A byte sequence of fewer than 8 bytes is no frame (R91). -/
  | frameTooShort
  /-- Its first byte is not STX (R64). -/
  | frameBadStart
  /-- Its last byte is not CR (R64). -/
  | frameBadTerminator
  /-- Its byte at `len-4` is not ETX (R64). -/
  | frameBadEtx
  /-- Its CHK characters are not those of its checksum (R95, R104). -/
  | frameBadChecksum
deriving DecidableEq, Repr

/-! ## CMD24 (R106) -/

/-- The 24-bit pattern of three bytes, the first in bits 23:16 (R106). -/
def cmdToBits (k : Cmd) : BitVec 24 := k.b0 ++ k.b1 ++ k.b2

/-- The three bytes of a 24-bit pattern (R106). -/
def cmdOfBits (w : BitVec 24) : Cmd := ⟨w.extractLsb' 16 8, w.extractLsb' 8 8, w.extractLsb' 0 8⟩

/-- The mask that clears the case bit of each letter (R106). -/
def cmdMask : BitVec 24 := 0xDFDFDF

/-- The match pattern M of a command, its code in uppercase (R106). -/
def commandMatch : Command → BitVec 24
  | .hxx => 0x485858
  | .hpo => 0x48504F
  | .hst => 0x485354
  | .hrt => 0x485254
  | .hof => 0x484F46
  | .hon => 0x484F4E
  | .hcm => 0x48434D
  | .hre => 0x485245
  | .hbv => 0x484256
  | .hgt => 0x484754
  | .hgv => 0x484756
  | .hgc => 0x484743
  | .hgs => 0x484753
  | .hsc => 0x485343
  | .hrc => 0x485243

/-- The 15 commands in the order of the source's listing (R107). -/
def allCommands : List Command :=
  [.hxx, .hpo, .hst, .hrt, .hof, .hon, .hcm, .hre, .hbv, .hgt, .hgv, .hgc, .hgs, .hsc, .hrc]

/-- The case of the three letters of a pattern: bits 21, 13 and 5 (R106). -/
def spellingOf (w : BitVec 24) : Spelling := ⟨w.getLsbD 21, w.getLsbD 13, w.getLsbD 5⟩

/-- The three case bits of a spelling in their places. -/
def spellingBits (sp : Spelling) : BitVec 24 :=
  (if sp.low0 then 0x200000 else 0) ||| (if sp.low1 then 0x002000 else 0)
    ||| (if sp.low2 then 0x000020 else 0)

/-- The three bytes of a command in a given spelling. -/
def commandBits (m : Command) (sp : Spelling) : BitVec 24 := commandMatch m ||| spellingBits sp

/-- The command a pattern stands for: the row with `(w AND 0xDFDFDF) = M` (R106). -/
def decodeCommand (w : BitVec 24) : Option Command :=
  allCommands.find? (fun m => (w &&& cmdMask) == commandMatch m)

/-- The instruction of a command's row. -/
def commandInstr : Command → Spelling → CmdUse → Instr
  | .hxx => .hxx
  | .hpo => .hpo
  | .hst => .hst
  | .hrt => .hrt
  | .hof => .hof
  | .hon => .hon
  | .hcm => .hcm
  | .hre => .hre
  | .hbv => .hbv
  | .hgt => .hgt
  | .hgv => .hgv
  | .hgc => .hgc
  | .hgs => .hgs
  | .hsc => .hsc
  | .hrc => .hrc

/-- A request whose code has no row of its own is an EXCHANGE (R131: any three bytes may be sent); a
received code without a row is unknown (R108). -/
def decodeCmd24 (w : BitVec 24) (u : CmdUse) : Except Reject Instr :=
  match decodeCommand w, u with
  | some m, u => .ok (commandInstr m (spellingOf w) u)
  | none, .request p => .ok (.exchange (cmdOfBits w) p)
  | none, .dispatch => .error .unknownCommand

/-! ## BYTE8 (R105, R164) -/

/-- The transition that a received byte selects in a state of the recognizer (R164). -/
def decodeByte8 (st : RxState) (b : Byte) : Instr :=
  match st, Machine.byteClass b with
  | .awaitingStart, .stx => .rxStartStx
  | .awaitingStart, .etx => .rxStartEtx
  | .awaitingStart, .cr => .rxStartCr
  | .awaitingStart, .other => .rxStartOther b
  | .awaitingEnd, .stx => .rxEndStx
  | .awaitingEnd, .etx => .rxEndEtx
  | .awaitingEnd, .cr => .rxEndCr
  | .awaitingEnd, .other => .rxEndOther b
  | .awaitingTerminator, .stx => .rxTermStx
  | .awaitingTerminator, .etx => .rxTermEtx
  | .awaitingTerminator, .cr => .rxTermCr
  | .awaitingTerminator, .other => .rxTermOther b

/-! ## HEXDIGIT8 (R100) -/

/-- The hex digit a character stands for; a lowercase letter only when the parameter admits it (R100). -/
def decodeHexdigit8 (c : Config) (b : Byte) : Instr :=
  match b.toNat with
  | 0x30 => .hex0
  | 0x31 => .hex1
  | 0x32 => .hex2
  | 0x33 => .hex3
  | 0x34 => .hex4
  | 0x35 => .hex5
  | 0x36 => .hex6
  | 0x37 => .hex7
  | 0x38 => .hex8
  | 0x39 => .hex9
  | 0x41 => .hexA
  | 0x42 => .hexB
  | 0x43 => .hexC
  | 0x44 => .hexD
  | 0x45 => .hexE
  | 0x46 => .hexF
  | 0x61 => if c.rxHexAcceptLower then .hexLowA else .hexNone b
  | 0x62 => if c.rxHexAcceptLower then .hexLowB else .hexNone b
  | 0x63 => if c.rxHexAcceptLower then .hexLowC else .hexNone b
  | 0x64 => if c.rxHexAcceptLower then .hexLowD else .hexNone b
  | 0x65 => if c.rxHexAcceptLower then .hexLowE else .hexNone b
  | 0x66 => if c.rxHexAcceptLower then .hexLowF else .hexNone b
  | _ => .hexNone b

/-! ## ERRCODE16 (R240 to R249) -/

/-- The row of an error code. -/
def decodeErrcode16 (e : Word) : Instr :=
  match e.toNat with
  | 1 => .err1
  | 2 => .err2
  | 3 => .err3
  | 4 => .err4
  | 5 => .err5
  | 6 => .err6
  | 7 => .err7
  | _ => .errUnmapped e

/-! ## FRAME (R64, R90, R95) -/

/-- A byte sequence read as a frame: its delimiters and its checksum are checked where R64 puts them. The
catalog is not consulted (that is DECODE's check, R188). -/
def decodeFrameCode (f : List Byte) : Except Reject Instr :=
  if f.length < 8 then .error .frameTooShort
  else if Machine.byteAt f 0 ≠ STX then .error .frameBadStart
  else if Machine.byteAt f (f.length - 1) ≠ CR then .error .frameBadTerminator
  else if Machine.byteAt f (f.length - 4) ≠ ETX then .error .frameBadEtx
  else if Machine.chkField f ≠ Machine.hexPair (Machine.chk (Machine.slice f 0 (f.length - 3))) then
    .error .frameBadChecksum
  else .ok (.frame (Machine.cmdField f) (Machine.dataField f))

/-! ## The decoder and the encoder -/

/-- The decoder: the instruction of a code, or why it is none. -/
def decode (x : Code) (c : Config := Config.spec) : Except Reject Instr :=
  match x with
  | .resetEvent => .ok .reset
  | .deadlineEvent => .ok .deadline
  | .txReadyEvent => .ok .send
  | .tauEvent => .ok .classify
  | .byte8 st b => .ok (decodeByte8 st b)
  | .cmd24 w u => decodeCmd24 w u
  | .hexdigit8 b => .ok (decodeHexdigit8 c b)
  | .errcode16 e => .ok (decodeErrcode16 e)
  | .frameCode f => decodeFrameCode f
  | .encodeCall k p => .ok (.encode k p)
  | .readframeCall => .ok .readframe
  | .decodeCall arg => .ok (.decode arg)

/-- The encoder: the code of an instruction, from the same tables (R64, R96, R100, R105, R106, R240). -/
def encode : Instr → Code
  | .frame k data => .frameCode (Machine.frameBytes k data)
  | .hxx sp u => .cmd24 (commandBits .hxx sp) u
  | .hpo sp u => .cmd24 (commandBits .hpo sp) u
  | .hst sp u => .cmd24 (commandBits .hst sp) u
  | .hrt sp u => .cmd24 (commandBits .hrt sp) u
  | .hof sp u => .cmd24 (commandBits .hof sp) u
  | .hon sp u => .cmd24 (commandBits .hon sp) u
  | .hcm sp u => .cmd24 (commandBits .hcm sp) u
  | .hre sp u => .cmd24 (commandBits .hre sp) u
  | .hbv sp u => .cmd24 (commandBits .hbv sp) u
  | .hgt sp u => .cmd24 (commandBits .hgt sp) u
  | .hgv sp u => .cmd24 (commandBits .hgv sp) u
  | .hgc sp u => .cmd24 (commandBits .hgc sp) u
  | .hgs sp u => .cmd24 (commandBits .hgs sp) u
  | .hsc sp u => .cmd24 (commandBits .hsc sp) u
  | .hrc sp u => .cmd24 (commandBits .hrc sp) u
  | .rxStartStx => .byte8 .awaitingStart 0x02
  | .rxStartEtx => .byte8 .awaitingStart 0x03
  | .rxStartCr => .byte8 .awaitingStart 0x0D
  | .rxStartOther b => .byte8 .awaitingStart b
  | .rxEndStx => .byte8 .awaitingEnd 0x02
  | .rxEndEtx => .byte8 .awaitingEnd 0x03
  | .rxEndCr => .byte8 .awaitingEnd 0x0D
  | .rxEndOther b => .byte8 .awaitingEnd b
  | .rxTermCr => .byte8 .awaitingTerminator 0x0D
  | .rxTermStx => .byte8 .awaitingTerminator 0x02
  | .rxTermEtx => .byte8 .awaitingTerminator 0x03
  | .rxTermOther b => .byte8 .awaitingTerminator b
  | .hex0 => .hexdigit8 0x30
  | .hex1 => .hexdigit8 0x31
  | .hex2 => .hexdigit8 0x32
  | .hex3 => .hexdigit8 0x33
  | .hex4 => .hexdigit8 0x34
  | .hex5 => .hexdigit8 0x35
  | .hex6 => .hexdigit8 0x36
  | .hex7 => .hexdigit8 0x37
  | .hex8 => .hexdigit8 0x38
  | .hex9 => .hexdigit8 0x39
  | .hexA => .hexdigit8 0x41
  | .hexB => .hexdigit8 0x42
  | .hexC => .hexdigit8 0x43
  | .hexD => .hexdigit8 0x44
  | .hexE => .hexdigit8 0x45
  | .hexF => .hexdigit8 0x46
  | .hexLowA => .hexdigit8 0x61
  | .hexLowB => .hexdigit8 0x62
  | .hexLowC => .hexdigit8 0x63
  | .hexLowD => .hexdigit8 0x64
  | .hexLowE => .hexdigit8 0x65
  | .hexLowF => .hexdigit8 0x66
  | .hexNone b => .hexdigit8 b
  | .err1 => .errcode16 0x0001
  | .err2 => .errcode16 0x0002
  | .err3 => .errcode16 0x0003
  | .err4 => .errcode16 0x0004
  | .err5 => .errcode16 0x0005
  | .err6 => .errcode16 0x0006
  | .err7 => .errcode16 0x0007
  | .errUnmapped e => .errcode16 e
  | .encode k p => .encodeCall k p
  | .send => .txReadyEvent
  | .readframe => .readframeCall
  | .decode arg => .decodeCall arg
  | .classify => .tauEvent
  | .exchange k p => .cmd24 (cmdToBits k) (.request p)
  | .deadline => .deadlineEvent
  | .reset => .resetEvent

/-- The code a byte stands for when nothing says where it is presented: a hex digit character is a
HEXDIGIT8, every other byte a byte received in AwaitingStart, the state after reset (log entry 10). -/
def byteCode (b : Byte) : Code :=
  if (Machine.hexVal Config.spec b).isSome then .hexdigit8 b else .byte8 .awaitingStart b

/-- The code that the bits `w` of a table row of `nbits` bits stand for (log entry 10): 24 bits are a
request with that CMD field and an empty payload, 16 bits an error code, 8 bits a byte. -/
def tableCode (nbits w : Nat) : Option Code :=
  match nbits with
  | 24 => some (.cmd24 (BitVec.ofNat 24 w) (.request (.raw [])))
  | 16 => some (.errcode16 (BitVec.ofNat 16 w))
  | 8 => some (byteCode (BitVec.ofNat 8 w))
  | _ => none

/-- The instruction the decoder reads from a table row's bits. -/
def decodeTableWord (nbits w : Nat) : Option Instr :=
  (tableCode nbits w).bind (fun x => (decode x).toOption)

end Sys2Proof
end

