-- ==== Sys2Proof/Machine/State.lean ====
section
/-! DEFINITION. The state of the block, every element of R43 under its own name, and beside it the
environment the block acts on (the byte source, the byte sink, the presented events), which R41 and R20
require a model to carry. State is plain data. -/

namespace Sys2Proof.Machine

/-- The states of the exchange sequencer, `seq_state` (R21). -/
inductive SeqState where
  | idle
  | sent
  | awaitingFrame
  | decoded
deriving DecidableEq, Repr

/-- The kinds of outcome, `res_kind` (R30). -/
inductive ResKind where
  | none
  | success
  | deviceError
  | frameError
  | timeout
deriving DecidableEq, Repr

/-- The causes of a FrameError, `res_cause` (R31, R341). -/
inductive Cause where
  | none
  | overflow
  | tooShort
  | badStart
  | badTerminator
  | badEtx
  | unknownCommand
  | lengthMismatch
  | checksumMismatch
  | badHexDigit
  | echoMismatch
deriving DecidableEq, Repr

/-- A frame buffer: the bytes that have been written, as (index, byte) pairs in strictly rising order
of index. An index that is not listed holds an unspecified byte (R24, R27) and reads as no value. -/
abbrev Memory := List Host.Cell

/-- The canonical form of a buffer: strictly rising indexes. -/
abbrev Memory.wf (m : Memory) : Prop := m.Pairwise (fun x y => x.1 < y.1)

/-- The six result words `res_words[0..5]` (R33). -/
structure ResWords where
  w0 : Word
  w1 : Word
  w2 : Word
  w3 : Word
  w4 : Word
  w5 : Word
deriving DecidableEq, Repr

/-- Six zeros, the reset value (R43). -/
def ResWords.zero : ResWords := ⟨0, 0, 0, 0, 0, 0⟩

/-- The items of `RESULT` that the host reads (R37). -/
structure Result where
  /-- `res_kind` (R30) -/
  kind : ResKind
  /-- `res_cause` (R31) -/
  cause : Cause
  /-- `res_cmd` (R32) -/
  cmd : Cmd
  /-- `res_nwords` (R33) -/
  nwords : Nat
  /-- `res_words[0..5]` (R33) -/
  words : ResWords
  /-- `res_errcode` (R34) -/
  errcode : Word
  /-- `res_msg` (R34) -/
  msg : Nat
  /-- `res_exp_len` (R35) -/
  expLen : Nat
  /-- `res_act_len` (R35) -/
  actLen : Nat
  /-- `res_chk_calc` (R35) -/
  chkCalc : CharPair
  /-- `res_chk_recv` (R35) -/
  chkRecv : CharPair
deriving DecidableEq, Repr

/-- Every result register at its reset value (R43), which is also what EXCHANGE start writes (R262). -/
def Result.zero : Result where
  kind := .none
  cause := .none
  cmd := Cmd.zero
  nwords := 0
  words := ResWords.zero
  errcode := 0
  msg := 0
  expLen := 0
  actLen := 0
  chkCalc := CharPair.zero
  chkRecv := CharPair.zero

/-- The result of DECODE (R180): the lowercase code with the DataWords, or the cause of the failure. -/
inductive DecodeResult where
  | ok (k : Cmd) (ws : List Word)
  | frameError (cause : Cause)
deriving DecidableEq, Repr

/-- What DECODE supplies: its result and the values of the context registers (R197). -/
structure Decoded where
  result : DecodeResult
  cmd : Cmd
  expLen : Nat
  actLen : Nat
  chkCalc : CharPair
  chkRecv : CharPair
deriving DecidableEq, Repr

/-- Why a `Req` is refused (R261, R133). -/
inductive RefusedReason where
  | busy
  | payloadTooLong
deriving DecidableEq, Repr

/-- The value a pure function of the block returns to its caller. The field is the model's own: the
spec's pure functions return a value and change nothing (log entry 9). -/
inductive Value where
  /-- a byte sequence: FRAME (R90), ENCODE (R134) -/
  | bytes (f : List Byte)
  /-- the result of DECODE with its context (R197, R198) -/
  | decoded (d : Decoded)
  /-- the value of a hex digit, or none, and whether the block itself produces that character
  (R99, R100) -/
  | digit (v : Option Nat) (produced : Bool)
  /-- what the dispatcher reports of a CMD field (R212) -/
  | entry (e : Option CatalogEntry)
  /-- the outcome of an error code: the raw code, `res_msg` and the message (R240 to R249) -/
  | deviceError (e : Word) (msg : Nat) (text : Option String)
  /-- the code presented is no instruction (R108, R64) -/
  | rejected (r : Reject)
deriving DecidableEq, Repr

/-- The output of a step, at most one (R20); `returned` is the model's own (log entry 9). -/
inductive Output where
  | tx (b : Byte)
  | done
  | refused (r : RefusedReason)
  | returned (v : Value)
deriving DecidableEq, Repr

/-- A host request `Req(cmd, payload)` (R20, R37). -/
structure Request where
  cmd : Cmd
  payload : Payload
deriving DecidableEq, Repr

/-- A call of one of the block's pure functions, presented at the model's own port with its arguments
(log entry 9). DECODE is called there with bytes of the caller's: the port gives no access to the buffers,
which the host cannot read (R37, R70, R71). -/
inductive Probe where
  | cmdField (w : BitVec 24)
  | hexdigit (b : Byte)
  | errcode (e : Word)
  | frame (f : List Byte)
  | encode (k : Cmd) (p : Payload)
  | decode (f : List Byte)
deriving DecidableEq, Repr

/-- One move of the environment before a step (log entry 6): the source emptied (R78, R393), bytes put
behind those that wait in it, the events of R20 presented. -/
structure Tick where
  emptySource : Bool := false
  rx : List Byte := []
  resetStrobe : Bool := false
  deadlineStrobe : Bool := false
  txReady : Bool := false
  req : Option Request := none
  probe : Option Probe := none
deriving DecidableEq, Repr

/-- The environment of the block. None of it is reset by the block's `Reset` (R43, R381). -/
structure Env where
  /-- the byte source, oldest byte first (R41) -/
  source : List Byte
  /-- the bytes given to the byte sink, oldest first (R39, R69) -/
  sink : List Byte
  /-- `Reset` is presented -/
  resetStrobe : Bool
  /-- `Deadline` is presented -/
  deadlineStrobe : Bool
  /-- `TxReady` is presented: the sink can take a byte -/
  txReady : Bool
  /-- the requests presented and not yet answered, oldest first -/
  reqs : List Request
  /-- a call of a pure function is presented -/
  probe : Option Probe
  /-- the environment's moves to come, one before each step -/
  script : List Tick
  /-- the output of the last step -/
  output : Option Output
deriving DecidableEq, Repr

/-- An environment in which nothing is presented and nothing waits. -/
def Env.quiet : Env where
  source := []
  sink := []
  resetStrobe := false
  deadlineStrobe := false
  txReady := false
  reqs := []
  probe := none
  script := []
  output := none

/-- The state: the elements of R43, and the environment. -/
structure State where
  /-- `seq_state` (R21) -/
  seqState : SeqState
  /-- `rx_state` (R22) -/
  rxState : RxState
  /-- `rx_buf` (R24) -/
  rxBuf : Memory
  /-- `rx_len` (R25) -/
  rxLen : Nat
  /-- `rx_ovf` (R26) -/
  rxOvf : Bool
  /-- `tx_buf` (R27) -/
  txBuf : Memory
  /-- `tx_len` (R28) -/
  txLen : Nat
  /-- `tx_idx` (R28) -/
  txIdx : Nat
  /-- `last_cmd` (R29) -/
  lastCmd : Cmd
  /-- `res_valid` (R30) -/
  resValid : Bool
  /-- the result registers (R30 to R35) -/
  res : Result
  /-- the environment (R20, R41; log entry 6) -/
  env : Env
deriving DecidableEq, Repr

/-- The machine after `Reset` and at power-on: every element at the value of R43's table, the buffers
unspecified (nothing listed), and an environment that has presented nothing (R385: the source is empty). -/
def State.reset : State where
  seqState := .idle
  rxState := .awaitingStart
  rxBuf := []
  rxLen := 0
  rxOvf := false
  txBuf := []
  txLen := 0
  txIdx := 0
  lastCmd := Cmd.zero
  resValid := false
  res := Result.zero
  env := Env.quiet

/-- The reasons a step can stop with a fault. Neither is reached from reset: both are raised only in
states that no run reaches. -/
inductive Fault where
  /-- An access to RXBUF or TXBUF at or above its capacity, which R11 leaves undefined. Raised by DECODE
  and CLASSIFY (`rx_len` above `RX_CAP`), SEND (`tx_idx` not below `TX_CAP`). Safe: the model stops where
  the spec gives no effect. -/
  | outsideBuffer
  /-- A read of a buffer byte that nothing has written since reset, which R24 and R27 say no rule does.
  Raised by DECODE, CLASSIFY and SEND. Safe: no value is made up. -/
  | unwrittenByte
deriving DecidableEq, Repr

/-- The reasons a step can be refused. -/
inductive Refusal where
  /-- Raised by an arm of `exec` whose instruction has no meaning yet. Safe. No arm of this model
  raises it. -/
  | notModelled (mnemonic : String)
deriving DecidableEq, Repr

end Sys2Proof.Machine
end

