-- ==== Sys2Proof/Machine/Flags.lean ====
section
/-! DEFINITION. The flags (R36), the numeric encodings of the state elements (D3) and the view the
host has of the block (R37). The block has no arithmetic condition codes. -/

namespace Sys2Proof.Machine

/-- The derived flag `busy` (R36). -/
def busy (s : State) : Bool := decide (s.seqState ≠ .idle)

/-- The 2-bit encoding of `seq_state` (R21). -/
def seqCode : SeqState → BitVec 2
  | .idle => 0
  | .sent => 1
  | .awaitingFrame => 2
  | .decoded => 3

/-- The 2-bit encoding of `rx_state`; the value 3 is never present (R22). -/
def rxCode : RxState → BitVec 2
  | .awaitingStart => 0
  | .awaitingEnd => 1
  | .awaitingTerminator => 2

/-- The 3-bit encoding of `res_kind`; the values 5 to 7 are never present (R30). -/
def kindCode : ResKind → BitVec 3
  | .none => 0
  | .success => 1
  | .deviceError => 2
  | .frameError => 3
  | .timeout => 4

/-- The 4-bit encoding of `res_cause`; the values 11 to 15 are never present (R31). -/
def causeCode : Cause → BitVec 4
  | .none => 0
  | .overflow => 1
  | .tooShort => 2
  | .badStart => 3
  | .badTerminator => 4
  | .badEtx => 5
  | .unknownCommand => 6
  | .lengthMismatch => 7
  | .checksumMismatch => 8
  | .badHexDigit => 9
  | .echoMismatch => 10

/-- The read-only item `STATUS` (R37). -/
structure StatusView where
  seqState : BitVec 2
  rxState : BitVec 2
  rxOvf : Bool
  resValid : Bool
deriving DecidableEq, Repr

/-- What the host reads at `STATUS` (R37). -/
def readStatus (s : State) : StatusView :=
  ⟨seqCode s.seqState, rxCode s.rxState, s.rxOvf, s.resValid⟩

/-- The width of `res_exp_len` and `res_act_len`: enough bits to hold `RX_CAP`, 6 for 32 (R44). -/
def lengthWidth (c : Config) : Nat := Nat.log2 c.rxCap + 1

/-- The read-only item `RESULT`, each register at its width (R37, R43); `w` is the width of the two
lengths (R44). -/
structure ResultView (w : Nat) where
  resKind : BitVec 3
  resCause : BitVec 4
  resCmd : Cmd
  resNwords : BitVec 3
  resWords : ResWords
  resErrcode : Word
  resMsg : BitVec 3
  resExpLen : BitVec w
  resActLen : BitVec w
  resChkCalc : CharPair
  resChkRecv : CharPair
deriving DecidableEq, Repr

/-- What the host reads at `RESULT` (R37). The counters are naturals in the state and are read at widths
that hold them (R44). -/
def readResult (s : State) (c : Config := Config.spec) : ResultView (lengthWidth c) where
  resKind := kindCode s.res.kind
  resCause := causeCode s.res.cause
  resCmd := s.res.cmd
  resNwords := BitVec.ofNat 3 s.res.nwords
  resWords := s.res.words
  resErrcode := s.res.errcode
  resMsg := BitVec.ofNat 3 s.res.msg
  resExpLen := BitVec.ofNat (lengthWidth c) s.res.expLen
  resActLen := BitVec.ofNat (lengthWidth c) s.res.actLen
  resChkCalc := s.res.chkCalc
  resChkRecv := s.res.chkRecv

end Sys2Proof.Machine
end

