-- ==== Sys2Proof/Machine/Ops.lean ====
section
/-! DEFINITION. The named operations over the buffers, the stream and the result registers, from which
every instruction is built: buffer access (R11), `keep` (R151), the recognizer (R164), ENCODE (R134),
EXCHANGE start (R262), the transmit step (R137), DECODE (R198), and the end of an exchange, with an
outcome or a failure (R270, R274, R277, R357), which is what this block has for an exception. Every
operation takes the parameters of R8 as an argument. -/

namespace Sys2Proof.Machine

/-! ## Buffers (R11, R39) -/

/-- The byte at an index of a buffer, none where nothing has been written (R24, R27). -/
def Memory.read : Memory → Nat → Option Byte
  | [], _ => none
  | (a, b) :: m, i => if a = i then some b else Memory.read m i

/-- The buffer with one byte written; the indexes stay strictly rising. -/
def Memory.write : Memory → Nat → Byte → Memory
  | [], i, v => [(i, v)]
  | (a, b) :: m, i, v =>
    if i < a then (i, v) :: (a, b) :: m
    else if i = a then (i, v) :: m
    else (a, b) :: Memory.write m i v

/-- The `n` bytes from index `a` on, none if one of them has not been written. -/
def Memory.readRange (m : Memory) (a : Nat) : Nat → Option (List Byte)
  | 0 => some []
  | n + 1 =>
    match Memory.read m a, Memory.readRange m (a + 1) n with
    | some b, some bs => some (b :: bs)
    | _, _ => none

/-- The buffer with a sequence of bytes written from index `a` on. -/
def Memory.writeRange (m : Memory) (a : Nat) : List Byte → Memory
  | [] => m
  | b :: bs => Memory.writeRange (Memory.write m a b) (a + 1) bs

/-- `MemRead(space, a, n)` on a buffer of capacity `cap` (R11). -/
def memRead (cap : Nat) (m : Memory) (a n : Nat) : Except Fault (List Byte) :=
  if a + n ≤ cap then
    match Memory.readRange m a n with
    | some bs => .ok bs
    | none => .error .unwrittenByte
  else .error .outsideBuffer

/-- `MemWrite(space, a, n, v)` on a buffer of capacity `cap` (R11). -/
def memWrite (cap : Nat) (m : Memory) (a : Nat) (bs : List Byte) : Except Fault Memory :=
  if a + bs.length ≤ cap then .ok (Memory.writeRange m a bs) else .error .outsideBuffer

/-! ## Output -/

/-- The state with the output of this step (R20). -/
def State.withOutput (s : State) (o : Option Output) : State :=
  { s with env := { s.env with output := o } }

/-- A step that changes nothing and has no output: an event that has no effect in the state (R280,
"none"), or one that is not enabled, where the block waits (R11, R280 "-"; log entry 7). -/
def unchanged (s : State) : Host.Outcome State Fault Refusal := .next (s.withOutput none)

/-- The step of a pure function: nothing changes, the value is given to the caller (log entry 9). -/
def giveValue (v : Value) (s : State) : Host.Outcome State Fault Refusal :=
  .next (s.withOutput (some (.returned v)))

/-! ## The recognizer (R150 to R164) -/

/-- `keep(b)`: the byte is appended to the receive buffer, or dropped with `rx_ovf` set when the buffer
is full (R151). -/
def keep (c : Config) (b : Byte) (s : State) : State :=
  if s.rxLen < c.rxCap then
    { s with rxBuf := Memory.write s.rxBuf s.rxLen b, rxLen := s.rxLen + 1 }
  else { s with rxOvf := true }

/-- A byte before any STX: discarded, or kept when `RX_KEEP_PREAMBLE` (R153 to R155). -/
def preamble (c : Config) (b : Byte) (s : State) : State :=
  if c.rxKeepPreamble then keep c b s else s

/-- The raw frame is complete: the recognizer returns to AwaitingStart, the sequencer goes to Decoded
(R160). -/
def frameComplete (s : State) : State :=
  { s with rxState := .awaitingStart, seqState := .decoded }

/-- One transition of the recognizer's table: it applies in the state AwaitingFrame of the sequencer
(R150) and in the recognizer state of its row; otherwise the row is not selected and the block waits. -/
def rxTransition (st : RxState) (act : State → State) (s : State) : Host.Outcome State Fault Refusal :=
  if s.seqState = .awaitingFrame ∧ s.rxState = st then .next ((act s).withOutput none)
  else unchanged s

/-- The recognizer as one function of the byte (R164). -/
def recognize (c : Config) (b : Byte) (s : State) : State :=
  match s.rxState with
  | .awaitingStart =>
    if b = STX then { keep c b s with rxState := .awaitingEnd } else preamble c b s
  | .awaitingEnd =>
    if b = ETX then { keep c b s with rxState := .awaitingTerminator } else keep c b s
  | .awaitingTerminator =>
    if b = CR then frameComplete (keep c b s) else keep c b s

/-! ## Transmit (R130 to R137) -/

/-- ENCODE: the request frame, or the refusal when the DATA field is too long (R131, R133, R134). -/
def encodeFrame (c : Config) (k : Cmd) (p : Payload) : Except RefusedReason (List Byte) :=
  if c.txMaxData < (dataBytes p).length then .error .payloadTooLong
  else .ok (frameBytes (upperCmd k) (dataBytes p))

/-- `Req(cmd, payload)`: refused when the block is not Idle or the payload is too long (R261), else
EXCHANGE start (R262): the frame is built into `tx_buf`, the receive state and every result register are
cleared, the sequencer goes to Sent. -/
def exchangeStart (c : Config) (k : Cmd) (p : Payload) (s : State) : Host.Outcome State Fault Refusal :=
  if s.seqState ≠ .idle then .next (s.withOutput (some (.refused .busy)))
  else
    match encodeFrame c k p with
    | .error r => .next (s.withOutput (some (.refused r)))
    | .ok f =>
      match memWrite c.txCap s.txBuf 0 f with
      | .error e => .fault e
      | .ok m =>
        .next
          ({ s with
              txBuf := m
              txLen := f.length
              txIdx := 0
              lastCmd := cmdField f
              rxLen := 0
              rxOvf := false
              rxState := .awaitingStart
              resValid := false
              res := Result.zero
              seqState := .sent }.withOutput none)

/-- The transmit step of `TxReady` in state Sent: one byte to the sink, and AwaitingFrame after the last
one (R137). In any other state it does nothing. -/
def transmitByte (c : Config) (s : State) : Host.Outcome State Fault Refusal :=
  if s.seqState = .sent then
    match memRead c.txCap s.txBuf s.txIdx 1 with
    | .error e => .fault e
    | .ok bs =>
      .next
        { s with
          txIdx := s.txIdx + 1
          seqState := if s.txIdx + 1 = s.txLen then .awaitingFrame else .sent
          env := { s.env with
            sink := s.env.sink ++ [byteAt bs 0]
            output := some (.tx (byteAt bs 0)) } }
  else unchanged s

/-! ## DECODE (R180 to R198) -/

/-- Whether the two received characters fail the checksum check against the computed sum: byte for byte
when `CHK_CASE_STRICT`, else by value (R193). -/
def checksumFails (c : Config) (v : Byte) (r : CharPair) : Bool :=
  if c.chkCaseStrict then decide (hexPair v ≠ r) else decide (unhexPair c r ≠ some v)

/-- `decode(f, ovf)`, its checks in the order of R182 to R195, and the context values of R197. -/
def decodeFrame (c : Config) (f : List Byte) (ovf : Bool) : Decoded :=
  if ovf then
    ⟨.frameError .overflow, Cmd.zero, 0, f.length, CharPair.zero, CharPair.zero⟩
  else if f.length < 8 then
    ⟨.frameError .tooShort, Cmd.zero, 0, f.length, CharPair.zero, CharPair.zero⟩
  else if byteAt f 0 ≠ STX then
    ⟨.frameError .badStart, Cmd.zero, 0, f.length, CharPair.zero, chkField f⟩
  else if byteAt f (f.length - 1) ≠ CR then
    ⟨.frameError .badTerminator, Cmd.zero, 0, f.length, CharPair.zero, chkField f⟩
  else if byteAt f (f.length - 4) ≠ ETX then
    ⟨.frameError .badEtx, Cmd.zero, 0, f.length, CharPair.zero, chkField f⟩
  else
    match dispatchLookup c (cmdField f) with
    | none =>
      ⟨.frameError .unknownCommand, Cmd.zero, 0, f.length, CharPair.zero, chkField f⟩
    | some e =>
      if f.length - 8 ≠ e.size then
        ⟨.frameError .lengthMismatch, e.code, e.frameSize, f.length, CharPair.zero, chkField f⟩
      else if checksumFails c (chk (slice f 0 (f.length - 3))) (chkField f) then
        ⟨.frameError .checksumMismatch, e.code, e.frameSize, f.length,
          hexPair (chk (slice f 0 (f.length - 3))), chkField f⟩
      else
        match parseWords c (dataField f) with
        | none =>
          ⟨.frameError .badHexDigit, e.code, e.frameSize, f.length,
            hexPair (chk (slice f 0 (f.length - 3))), chkField f⟩
        | some ws =>
          ⟨.ok e.code ws, e.code, e.frameSize, f.length,
            hexPair (chk (slice f 0 (f.length - 3))), chkField f⟩

/-- The raw frame `rx_buf[0:rx_len]` (R160). -/
def rawFrame (c : Config) (s : State) : Except Fault (List Byte) := memRead c.rxCap s.rxBuf 0 s.rxLen

/-! ## The end of an exchange: outcome, failure, reset (R270 to R279, R350, R357) -/

/-- The result words of a list of DataWords; the words above its length are 0 (R33). -/
def resWordsOf (ws : List Word) : ResWords :=
  ⟨ws.getD 0 0, ws.getD 1 0, ws.getD 2 0, ws.getD 3 0, ws.getD 4 0, ws.getD 5 0⟩

/-- The result registers with the context that DECODE supplies (R197, R270). -/
def Result.withContext (r : Result) (d : Decoded) : Result :=
  { r with
    expLen := d.expLen
    actLen := d.actLen
    chkCalc := d.chkCalc
    chkRecv := d.chkRecv
    cmd := d.cmd }

/-- FrameError with its cause (R273, R341). -/
def Result.frameError (r : Result) (cause : Cause) : Result :=
  { r with kind := .frameError, cause := cause }

/-- DeviceError with the raw code and the index of its message (R271, R249). -/
def Result.deviceError (r : Result) (e : Word) : Result :=
  { r with
    kind := .deviceError
    errcode := e
    msg := msgIndex e
    nwords := 1
    words := { r.words with w0 := e } }

/-- Success with the words of the response (R272). -/
def Result.success (r : Result) (ws : List Word) : Result :=
  { r with kind := .success, nwords := ws.length, words := resWordsOf ws }

/-- The outcome that CLASSIFY decides from the result of DECODE (R270 to R273). -/
def outcome (c : Config) (lastCmd : Cmd) (d : Decoded) (r : Result) : Result :=
  match d.result with
  | .frameError cause => (r.withContext d).frameError cause
  | .ok k ws =>
    if k = sentinel then (r.withContext d).deviceError (ws.headD 0)
    else if c.echoCheck ∧ k ≠ lowerCmd lastCmd then (r.withContext d).frameError .echoMismatch
    else (r.withContext d).success ws

/-- The end of an exchange, with success or with a failure: the result registers are written, the frame
state is cleared, the block is Idle and `Done` is output (R274, R277, R357). No address is saved and
control goes nowhere. -/
def endExchange (r : Result) (s : State) : State :=
  { s with
    res := r
    rxLen := 0
    rxOvf := false
    txLen := 0
    txIdx := 0
    resValid := true
    seqState := .idle
    env := { s.env with output := some .done } }

/-- CLASSIFY on `Tau` in state Decoded (R270). In any other state `Tau` is not enabled (R265). -/
def classifyFrame (c : Config) (s : State) : Host.Outcome State Fault Refusal :=
  if s.seqState = .decoded then
    match rawFrame c s with
    | .error e => .fault e
    | .ok f => .next (endExchange (outcome c s.lastCmd (decodeFrame c f s.rxOvf) s.res) s)
  else unchanged s

/-- `Deadline` in Sent or AwaitingFrame: the Timeout outcome, with the number of bytes kept so far; in
Idle and Decoded no change (R277). -/
def deadlineExpired (s : State) : Host.Outcome State Fault Refusal :=
  if s.seqState = .sent ∨ s.seqState = .awaitingFrame then
    .next
      { endExchange { s.res with kind := .timeout, cause := .none, actLen := s.rxLen } s with
        rxState := .awaitingStart }
  else unchanged s

/-- `Reset` in any state: every element at its reset value, the environment untouched, no output
(R279, R381). -/
def resetBlock (s : State) : State := { State.reset with env := { s.env with output := none } }

end Sys2Proof.Machine
end

