-- ==== Sys2Proof/Machine/Events.lean ====
section
/-! DEFINITION. How a step comes to its instruction: the environment moves, one event is chosen by the
priority of R356, it is taken, and the decoder reads it. This block fetches no instructions (R23, R77). -/

namespace Sys2Proof.Machine

/-- The environment after one of its moves (R41, R78: only the environment pushes or empties the
source). -/
def Env.arrive (e : Env) : Env :=
  match e.script with
  | [] => e
  | t :: rest =>
    { e with
      source := (if t.emptySource then [] else e.source) ++ t.rx
      resetStrobe := e.resetStrobe || t.resetStrobe
      deadlineStrobe := e.deadlineStrobe || t.deadlineStrobe
      txReady := e.txReady || t.txReady
      reqs := e.reqs ++ t.req.toList
      probe := t.probe.or e.probe
      script := rest }

/-- The state after the environment's move. -/
def State.arrive (s : State) : State := { s with env := s.env.arrive }

/-- The code of a call at the model's own port. -/
def probeCode : Probe → Code
  | .cmdField w => .cmd24 w .dispatch
  | .hexdigit b => .hexdigit8 b
  | .errcode e => .errcode16 e
  | .frame f => .frameCode f
  | .encode k p => .encodeCall k p
  | .decode f => .decodeCall (.bytes f)

/-- The code of a host request. -/
def requestCode (q : Request) : Code := .cmd24 (cmdToBits q.cmd) (.request q.payload)

/-- The one of `Rx`, `TxReady`, `Tau` that the state enables and that is presented (R280, R356): at most
one of the three is enabled in any state. -/
def enabledEvent (s : State) : Option Code :=
  match s.seqState with
  | .idle => none
  | .sent => if s.env.txReady then some .txReadyEvent else none
  | .awaitingFrame =>
    match s.env.source with
    | [] => none
    | b :: _ => some (.byte8 s.rxState b)
  | .decoded => some .tauEvent

/-- The code of what is presented below the enabled events: the oldest request (R356), then the model's
own port (log entry 9), then a `TxReady` in a state where it changes nothing (R280; log entry 6). -/
def pendingCode (s : State) : Option Code :=
  match s.env.reqs, s.env.probe with
  | q :: _, _ => some (requestCode q)
  | [], some p => some (probeCode p)
  | [], none => if s.env.txReady then some .txReadyEvent else none

/-- The one event the block takes when several are presented: `Reset`, then `Deadline`, then the
enabled one of `Rx`, `TxReady`, `Tau`, then `Req` (R356). -/
def selectEvent (s : State) : Option Code :=
  if s.env.resetStrobe then some .resetEvent
  else if s.env.deadlineStrobe then some .deadlineEvent
  else (enabledEvent s).or (pendingCode s)

/-- The environment after the block has taken an event; an event that lost is not consumed (R356), and
`SrcPop` takes the next byte of the source (R69). -/
def Env.take (e : Env) (x : Code) : Env :=
  match x with
  | .resetEvent => { e with resetStrobe := false }
  | .deadlineEvent => { e with deadlineStrobe := false }
  | .txReadyEvent => { e with txReady := false }
  | .tauEvent => e
  | .byte8 _ _ => { e with source := e.source.tail }
  | .cmd24 _ (.request _) => { e with reqs := e.reqs.tail }
  | .cmd24 _ .dispatch => { e with probe := none }
  | .hexdigit8 _ => { e with probe := none }
  | .errcode16 _ => { e with probe := none }
  | .frameCode _ => { e with probe := none }
  | .encodeCall _ _ => { e with probe := none }
  | .decodeCall _ => { e with probe := none }
  | .readframeCall => e

/-- The state after the block has taken an event. -/
def State.take (s : State) (x : Code) : State := { s with env := s.env.take x }

/-- A code that is no instruction, which only the model's own port can present: the caller is told
(R108, R212; log entry 9). -/
def rejectCode (r : Reject) (s : State) : Host.Outcome State Fault Refusal :=
  giveValue (.rejected r) s

/-- The environment moves it takes for the next step to see nothing but what is already presented. -/
def Env.quietTick (e : Env) : Env := { e with script := ({} : Tick) :: e.script }

/-- The state in which the next event taken is the request `q`. -/
def State.presentRequest (s : State) (q : Request) : State :=
  { s with
    seqState := .idle
    env := { s.env.quietTick with resetStrobe := false, deadlineStrobe := false, reqs := q :: s.env.reqs } }

/-- The state in which the next event taken is the byte `b` received in AwaitingStart. -/
def State.presentByte (s : State) (b : Byte) : State :=
  { s with
    seqState := .awaitingFrame
    rxState := .awaitingStart
    env := { s.env.quietTick with resetStrobe := false, deadlineStrobe := false, source := b :: s.env.source } }

/-- The state in which the next event taken is the call `p` at the model's own port. -/
def State.presentProbe (s : State) (p : Probe) : State :=
  { s with
    seqState := .idle
    env := { s.env.quietTick with
      resetStrobe := false, deadlineStrobe := false, reqs := [], probe := some p } }

/-- The state in which the next event taken is the code of a table row's bits (log entry 10). -/
def presentTableWord (s : State) (nbits w : Nat) : State :=
  match tableCode nbits w with
  | some (.cmd24 v (.request p)) => s.presentRequest ⟨cmdOfBits v, p⟩
  | some (.errcode16 e) => s.presentProbe (.errcode e)
  | some (.hexdigit8 b) => s.presentProbe (.hexdigit b)
  | some (.byte8 _ b) => s.presentByte b
  | _ => s

end Sys2Proof.Machine
end

