-- ==== Sys2Proof/Machine/Commands.lean ====
section
/-! DEFINITION. The 15 command codes (R213 to R227). A code is presented in a request, and then starts
the exchange of that command, or to the dispatcher as the CMD field of a received frame, and then is looked
up in the catalog (log entry 8). What the block does with the response is CLASSIFY's, by the catalog alone. -/

namespace Sys2Proof.Machine

/-- The meaning all 15 codes share: in a request, EXCHANGE start with the three bytes as written (R131,
R261, R262); before the dispatcher, the lookup of R212. -/
def commandMeaning (m : Command) (sp : Spelling) (u : CmdUse) (c : Config) (s : State) :
    Host.Outcome State Fault Refusal :=
  match u with
  | .request p => exchangeStart c (cmdOfBits (commandBits m sp)) p s
  | .dispatch => giveValue (.entry (dispatchLookup c (cmdOfBits (commandBits m sp)))) s

/-- HXX (R213): the error sentinel; its response carries one word, the error code. -/
def execHxx (sp : Spelling) (u : CmdUse) (s : State) (c : Config := Config.spec) :
    Host.Outcome State Fault Refusal := commandMeaning .hxx sp u c s

/-- HPO (R214): monitoring information; response of 5 words. -/
def execHpo (sp : Spelling) (u : CmdUse) (s : State) (c : Config := Config.spec) :
    Host.Outcome State Fault Refusal := commandMeaning .hpo sp u c s

/-- HST (R215): six-word request; response of 6 words. -/
def execHst (sp : Spelling) (u : CmdUse) (s : State) (c : Config := Config.spec) :
    Host.Outcome State Fault Refusal := commandMeaning .hst sp u c s

/-- HRT (R216): response of 6 words. -/
def execHrt (sp : Spelling) (u : CmdUse) (s : State) (c : Config := Config.spec) :
    Host.Outcome State Fault Refusal := commandMeaning .hrt sp u c s

/-- HOF (R217): response without DATA. -/
def execHof (sp : Spelling) (u : CmdUse) (s : State) (c : Config := Config.spec) :
    Host.Outcome State Fault Refusal := commandMeaning .hof sp u c s

/-- HON (R218): response without DATA. -/
def execHon (sp : Spelling) (u : CmdUse) (s : State) (c : Config := Config.spec) :
    Host.Outcome State Fault Refusal := commandMeaning .hon sp u c s

/-- HCM (R219): response without DATA. -/
def execHcm (sp : Spelling) (u : CmdUse) (s : State) (c : Config := Config.spec) :
    Host.Outcome State Fault Refusal := commandMeaning .hcm sp u c s

/-- HRE (R220): response without DATA. -/
def execHre (sp : Spelling) (u : CmdUse) (s : State) (c : Config := Config.spec) :
    Host.Outcome State Fault Refusal := commandMeaning .hre sp u c s

/-- HBV (R221): one-word request; response without DATA. -/
def execHbv (sp : Spelling) (u : CmdUse) (s : State) (c : Config := Config.spec) :
    Host.Outcome State Fault Refusal := commandMeaning .hbv sp u c s

/-- HGT (R222): response of 1 word. -/
def execHgt (sp : Spelling) (u : CmdUse) (s : State) (c : Config := Config.spec) :
    Host.Outcome State Fault Refusal := commandMeaning .hgt sp u c s

/-- HGV (R223): response of 1 word. -/
def execHgv (sp : Spelling) (u : CmdUse) (s : State) (c : Config := Config.spec) :
    Host.Outcome State Fault Refusal := commandMeaning .hgv sp u c s

/-- HGC (R224): response of 1 word. -/
def execHgc (sp : Spelling) (u : CmdUse) (s : State) (c : Config := Config.spec) :
    Host.Outcome State Fault Refusal := commandMeaning .hgc sp u c s

/-- HGS (R225): response of 1 word. -/
def execHgs (sp : Spelling) (u : CmdUse) (s : State) (c : Config := Config.spec) :
    Host.Outcome State Fault Refusal := commandMeaning .hgs sp u c s

/-- HSC (R226): response without DATA, as the catalog has it (conflict C1). -/
def execHsc (sp : Spelling) (u : CmdUse) (s : State) (c : Config := Config.spec) :
    Host.Outcome State Fault Refusal := commandMeaning .hsc sp u c s

/-- HRC (R227): response of 1 word. -/
def execHrc (sp : Spelling) (u : CmdUse) (s : State) (c : Config := Config.spec) :
    Host.Outcome State Fault Refusal := commandMeaning .hrc sp u c s

end Sys2Proof.Machine
end

