-- ==== Sys2Proof/Machine/ErrorCodes.lean ====
section
/-! DEFINITION. The device error codes (R240 to R251): the outcome an "hxx" frame with that DataWord has,
as the value of a pure function. CLASSIFY writes it to the result registers (R271). -/

namespace Sys2Proof.Machine

/-- The meaning all the error-code rows share: `res_errcode`, `res_msg` and the message of the code
(R240, R249, R250). -/
def errorMeaning (e : Word) (c : Config) (s : State) : Host.Outcome State Fault Refusal :=
  giveValue (.deviceError e (msgIndex e) (errMsg c e)) s

/-- Error code 1, "UART Communication Error" (R241). -/
def execErr1 (s : State) (c : Config := Config.spec) : Host.Outcome State Fault Refusal :=
  errorMeaning 0x0001 c s

/-- Error code 2, "Timeout Error" (R242). -/
def execErr2 (s : State) (c : Config := Config.spec) : Host.Outcome State Fault Refusal :=
  errorMeaning 0x0002 c s

/-- Error code 3, "Syntax Error" (R243). -/
def execErr3 (s : State) (c : Config := Config.spec) : Host.Outcome State Fault Refusal :=
  errorMeaning 0x0003 c s

/-- Error code 4, "Checksum Error" (R244). -/
def execErr4 (s : State) (c : Config := Config.spec) : Host.Outcome State Fault Refusal :=
  errorMeaning 0x0004 c s

/-- Error code 5, "Command Error" (R245). -/
def execErr5 (s : State) (c : Config := Config.spec) : Host.Outcome State Fault Refusal :=
  errorMeaning 0x0005 c s

/-- Error code 6, "Parameter Error" (R246). -/
def execErr6 (s : State) (c : Config := Config.spec) : Host.Outcome State Fault Refusal :=
  errorMeaning 0x0006 c s

/-- Error code 7, "Parameter Size Error" (R247). -/
def execErr7 (s : State) (c : Config := Config.spec) : Host.Outcome State Fault Refusal :=
  errorMeaning 0x0007 c s

/-- A code outside 1..7: DeviceError without a message, `res_msg` = 0 (R249). -/
def execErrUnmapped (e : Word) (s : State) (c : Config := Config.spec) : Host.Outcome State Fault Refusal :=
  errorMeaning e c s

end Sys2Proof.Machine
end

