-- ==== Sys2Proof/Machine/HexDigits.lean ====
section
/-! DEFINITION. The hex digits (R99, R100): the value a character stands for in received DATA, and
whether the block produces that character itself. They are a pure function; nothing changes. -/

namespace Sys2Proof.Machine

/-- The meaning all the digit rows share: `hexval` of the character, and whether it is the character
`hexchar` renders that value as (R99, R100). -/
def digitMeaning (b : Byte) (c : Config) (s : State) : Host.Outcome State Fault Refusal :=
  giveValue (.digit (hexVal c b) (decide ((hexVal c b).map hexChar = some b))) s

/-- The character '0', 0x30: value 0 (R100). -/
def execHex0 (s : State) (c : Config := Config.spec) : Host.Outcome State Fault Refusal :=
  digitMeaning 0x30 c s

/-- The character '1', 0x31: value 1 (R100). -/
def execHex1 (s : State) (c : Config := Config.spec) : Host.Outcome State Fault Refusal :=
  digitMeaning 0x31 c s

/-- The character '2', 0x32: value 2 (R100). -/
def execHex2 (s : State) (c : Config := Config.spec) : Host.Outcome State Fault Refusal :=
  digitMeaning 0x32 c s

/-- The character '3', 0x33: value 3 (R100). -/
def execHex3 (s : State) (c : Config := Config.spec) : Host.Outcome State Fault Refusal :=
  digitMeaning 0x33 c s

/-- The character '4', 0x34: value 4 (R100). -/
def execHex4 (s : State) (c : Config := Config.spec) : Host.Outcome State Fault Refusal :=
  digitMeaning 0x34 c s

/-- The character '5', 0x35: value 5 (R100). -/
def execHex5 (s : State) (c : Config := Config.spec) : Host.Outcome State Fault Refusal :=
  digitMeaning 0x35 c s

/-- The character '6', 0x36: value 6 (R100). -/
def execHex6 (s : State) (c : Config := Config.spec) : Host.Outcome State Fault Refusal :=
  digitMeaning 0x36 c s

/-- The character '7', 0x37: value 7 (R100). -/
def execHex7 (s : State) (c : Config := Config.spec) : Host.Outcome State Fault Refusal :=
  digitMeaning 0x37 c s

/-- The character '8', 0x38: value 8 (R100). -/
def execHex8 (s : State) (c : Config := Config.spec) : Host.Outcome State Fault Refusal :=
  digitMeaning 0x38 c s

/-- The character '9', 0x39: value 9 (R100). -/
def execHex9 (s : State) (c : Config := Config.spec) : Host.Outcome State Fault Refusal :=
  digitMeaning 0x39 c s

/-- The character 'A', 0x41: value 10 (R100). -/
def execHexA (s : State) (c : Config := Config.spec) : Host.Outcome State Fault Refusal :=
  digitMeaning 0x41 c s

/-- The character 'B', 0x42: value 11 (R100). -/
def execHexB (s : State) (c : Config := Config.spec) : Host.Outcome State Fault Refusal :=
  digitMeaning 0x42 c s

/-- The character 'C', 0x43: value 12 (R100). -/
def execHexC (s : State) (c : Config := Config.spec) : Host.Outcome State Fault Refusal :=
  digitMeaning 0x43 c s

/-- The character 'D', 0x44: value 13 (R100). -/
def execHexD (s : State) (c : Config := Config.spec) : Host.Outcome State Fault Refusal :=
  digitMeaning 0x44 c s

/-- The character 'E', 0x45: value 14 (R100). -/
def execHexE (s : State) (c : Config := Config.spec) : Host.Outcome State Fault Refusal :=
  digitMeaning 0x45 c s

/-- The character 'F', 0x46: value 15 (R100). -/
def execHexF (s : State) (c : Config := Config.spec) : Host.Outcome State Fault Refusal :=
  digitMeaning 0x46 c s

/-- The character 'a', 0x61: value 10; none when lowercase digits are not accepted (R100). -/
def execHexLowA (s : State) (c : Config := Config.spec) : Host.Outcome State Fault Refusal :=
  digitMeaning 0x61 c s

/-- The character 'b', 0x62: value 11; none when lowercase digits are not accepted (R100). -/
def execHexLowB (s : State) (c : Config := Config.spec) : Host.Outcome State Fault Refusal :=
  digitMeaning 0x62 c s

/-- The character 'c', 0x63: value 12; none when lowercase digits are not accepted (R100). -/
def execHexLowC (s : State) (c : Config := Config.spec) : Host.Outcome State Fault Refusal :=
  digitMeaning 0x63 c s

/-- The character 'd', 0x64: value 13; none when lowercase digits are not accepted (R100). -/
def execHexLowD (s : State) (c : Config := Config.spec) : Host.Outcome State Fault Refusal :=
  digitMeaning 0x64 c s

/-- The character 'e', 0x65: value 14; none when lowercase digits are not accepted (R100). -/
def execHexLowE (s : State) (c : Config := Config.spec) : Host.Outcome State Fault Refusal :=
  digitMeaning 0x65 c s

/-- The character 'f', 0x66: value 15; none when lowercase digits are not accepted (R100). -/
def execHexLowF (s : State) (c : Config := Config.spec) : Host.Outcome State Fault Refusal :=
  digitMeaning 0x66 c s

/-- A character that is no hex digit: no value; in DATA it fails the frame with BAD_HEX_DIGIT (R100, R195). -/
def execHexNone (b : Byte) (s : State) (c : Config := Config.spec) : Host.Outcome State Fault Refusal :=
  digitMeaning b c s

end Sys2Proof.Machine
end

