-- ==== Sys2Proof/Machine/Operations.lean ====
section
/-! DEFINITION. The frame itself and the frame operations: FRAME, ENCODE, SEND, READFRAME, DECODE,
CLASSIFY, EXCHANGE, DEADLINE, RESET (R9). -/

namespace Sys2Proof.Machine

/-- FRAME (R90): the bytes of the frame with these CMD and DATA fields, with its checksum (R95). -/
def execFrame (k : Cmd) (data : List Byte) (s : State) : Host.Outcome State Fault Refusal :=
  giveValue (.bytes (frameBytes k data)) s

/-- ENCODE (R130 to R136), a pure function: the request frame, or the refusal PAYLOAD_TOO_LONG. -/
def execEncode (k : Cmd) (p : Payload) (s : State) (c : Config := Config.spec) :
    Host.Outcome State Fault Refusal :=
  match encodeFrame c k p with
  | .ok f => giveValue (.bytes f) s
  | .error r => .next (s.withOutput (some (.refused r)))

/-- SEND (R137): the transmit step of `TxReady`. -/
def execSend (s : State) (c : Config := Config.spec) : Host.Outcome State Fault Refusal :=
  transmitByte c s

/-- READFRAME (R150, R164): in AwaitingFrame, one byte is taken from the source and the recognizer's
function applied; with an empty source, or in another state, the block waits. -/
def execReadframe (s : State) (c : Config := Config.spec) : Host.Outcome State Fault Refusal :=
  match s.seqState, s.env.source with
  | .awaitingFrame, b :: rest =>
    .next ((recognize c b { s with env := { s.env with source := rest } }).withOutput none)
  | _, _ => unchanged s

/-- DECODE (R180, R198): of the received frame, which it is given in Decoded only, so that no partial frame
is decoded (R70; elsewhere it is not enabled, log entry 7); or, as a pure function, of any byte sequence. -/
def execDecode (arg : DecodeArg) (s : State) (c : Config := Config.spec) :
    Host.Outcome State Fault Refusal :=
  match arg with
  | .received =>
    if s.seqState = .decoded then
      match rawFrame c s with
      | .error e => .fault e
      | .ok f => giveValue (.decoded (decodeFrame c f s.rxOvf)) s
    else unchanged s
  | .bytes f => giveValue (.decoded (decodeFrame c f false)) s

/-- CLASSIFY (R270): DECODE, the outcome, the result registers, `Done`. -/
def execClassify (s : State) (c : Config := Config.spec) : Host.Outcome State Fault Refusal :=
  classifyFrame c s

/-- EXCHANGE (R261, R262): a request of any three bytes and a payload. -/
def execExchange (k : Cmd) (p : Payload) (s : State) (c : Config := Config.spec) :
    Host.Outcome State Fault Refusal :=
  exchangeStart c k p s

/-- DEADLINE (R277). -/
def execDeadline (s : State) : Host.Outcome State Fault Refusal := deadlineExpired s

/-- RESET (R279). -/
def execReset (s : State) : Host.Outcome State Fault Refusal := .next (resetBlock s)

end Sys2Proof.Machine
end

