-- ==== Sys2Proof/Machine/Recognizer.lean ====
section
/-! DEFINITION. The twelve transitions of the recognizer, one for each pair of recognizer state and byte
class (R152 to R163). The byte has been taken from the source when a transition runs (R150). -/

namespace Sys2Proof.Machine

/-- AwaitingStart, STX: kept, the first byte of the frame; to AwaitingEnd (R152). -/
def execRxStartStx (s : State) (c : Config := Config.spec) : Host.Outcome State Fault Refusal :=
  rxTransition .awaitingStart (fun t => { keep c 0x02 t with rxState := .awaitingEnd }) s

/-- AwaitingStart, ETX: a byte of the preamble; no change of state (R153). -/
def execRxStartEtx (s : State) (c : Config := Config.spec) : Host.Outcome State Fault Refusal :=
  rxTransition .awaitingStart (preamble c 0x03) s

/-- AwaitingStart, CR: a byte of the preamble; no change of state (R154). -/
def execRxStartCr (s : State) (c : Config := Config.spec) : Host.Outcome State Fault Refusal :=
  rxTransition .awaitingStart (preamble c 0x0D) s

/-- AwaitingStart, OTHER: a byte of the preamble; no change of state (R155). -/
def execRxStartOther (b : Byte) (s : State) (c : Config := Config.spec) : Host.Outcome State Fault Refusal :=
  rxTransition .awaitingStart (preamble c b) s

/-- AwaitingEnd, STX: kept; a second STX does not restart the frame (R156). -/
def execRxEndStx (s : State) (c : Config := Config.spec) : Host.Outcome State Fault Refusal :=
  rxTransition .awaitingEnd (keep c 0x02) s

/-- AwaitingEnd, ETX: kept; to AwaitingTerminator (R157). -/
def execRxEndEtx (s : State) (c : Config := Config.spec) : Host.Outcome State Fault Refusal :=
  rxTransition .awaitingEnd (fun t => { keep c 0x03 t with rxState := .awaitingTerminator }) s

/-- AwaitingEnd, CR: kept; a CR before the ETX does not end the frame (R158). -/
def execRxEndCr (s : State) (c : Config := Config.spec) : Host.Outcome State Fault Refusal :=
  rxTransition .awaitingEnd (keep c 0x0D) s

/-- AwaitingEnd, OTHER: kept (R159). -/
def execRxEndOther (b : Byte) (s : State) (c : Config := Config.spec) : Host.Outcome State Fault Refusal :=
  rxTransition .awaitingEnd (keep c b) s

/-- AwaitingTerminator, CR: kept; the raw frame is complete (R160). -/
def execRxTermCr (s : State) (c : Config := Config.spec) : Host.Outcome State Fault Refusal :=
  rxTransition .awaitingTerminator (fun t => frameComplete (keep c 0x0D t)) s

/-- AwaitingTerminator, STX: kept; no restart (R161). -/
def execRxTermStx (s : State) (c : Config := Config.spec) : Host.Outcome State Fault Refusal :=
  rxTransition .awaitingTerminator (keep c 0x02) s

/-- AwaitingTerminator, ETX: kept (R162). -/
def execRxTermEtx (s : State) (c : Config := Config.spec) : Host.Outcome State Fault Refusal :=
  rxTransition .awaitingTerminator (keep c 0x03) s

/-- AwaitingTerminator, OTHER: kept (R163). -/
def execRxTermOther (b : Byte) (s : State) (c : Config := Config.spec) : Host.Outcome State Fault Refusal :=
  rxTransition .awaitingTerminator (keep c b) s

end Sys2Proof.Machine
end

