-- ==== Sys2Proof/Machine/Dispatch.lean ====
section
/-! DEFINITION. The meaning of every instruction, one arm per constructor. -/

namespace Sys2Proof.Machine

def exec (i : Instr) (s : State) : Host.Outcome State Fault Refusal :=
  match i with
  | .frame k data => Sys2Proof.Machine.execFrame k data s
  | .hxx sp u => Sys2Proof.Machine.execHxx sp u s
  | .hpo sp u => Sys2Proof.Machine.execHpo sp u s
  | .hst sp u => Sys2Proof.Machine.execHst sp u s
  | .hrt sp u => Sys2Proof.Machine.execHrt sp u s
  | .hof sp u => Sys2Proof.Machine.execHof sp u s
  | .hon sp u => Sys2Proof.Machine.execHon sp u s
  | .hcm sp u => Sys2Proof.Machine.execHcm sp u s
  | .hre sp u => Sys2Proof.Machine.execHre sp u s
  | .hbv sp u => Sys2Proof.Machine.execHbv sp u s
  | .hgt sp u => Sys2Proof.Machine.execHgt sp u s
  | .hgv sp u => Sys2Proof.Machine.execHgv sp u s
  | .hgc sp u => Sys2Proof.Machine.execHgc sp u s
  | .hgs sp u => Sys2Proof.Machine.execHgs sp u s
  | .hsc sp u => Sys2Proof.Machine.execHsc sp u s
  | .hrc sp u => Sys2Proof.Machine.execHrc sp u s
  | .rxStartStx => Sys2Proof.Machine.execRxStartStx s
  | .rxStartEtx => Sys2Proof.Machine.execRxStartEtx s
  | .rxStartCr => Sys2Proof.Machine.execRxStartCr s
  | .rxStartOther b => Sys2Proof.Machine.execRxStartOther b s
  | .rxEndStx => Sys2Proof.Machine.execRxEndStx s
  | .rxEndEtx => Sys2Proof.Machine.execRxEndEtx s
  | .rxEndCr => Sys2Proof.Machine.execRxEndCr s
  | .rxEndOther b => Sys2Proof.Machine.execRxEndOther b s
  | .rxTermCr => Sys2Proof.Machine.execRxTermCr s
  | .rxTermStx => Sys2Proof.Machine.execRxTermStx s
  | .rxTermEtx => Sys2Proof.Machine.execRxTermEtx s
  | .rxTermOther b => Sys2Proof.Machine.execRxTermOther b s
  | .hex0 => Sys2Proof.Machine.execHex0 s
  | .hex1 => Sys2Proof.Machine.execHex1 s
  | .hex2 => Sys2Proof.Machine.execHex2 s
  | .hex3 => Sys2Proof.Machine.execHex3 s
  | .hex4 => Sys2Proof.Machine.execHex4 s
  | .hex5 => Sys2Proof.Machine.execHex5 s
  | .hex6 => Sys2Proof.Machine.execHex6 s
  | .hex7 => Sys2Proof.Machine.execHex7 s
  | .hex8 => Sys2Proof.Machine.execHex8 s
  | .hex9 => Sys2Proof.Machine.execHex9 s
  | .hexA => Sys2Proof.Machine.execHexA s
  | .hexB => Sys2Proof.Machine.execHexB s
  | .hexC => Sys2Proof.Machine.execHexC s
  | .hexD => Sys2Proof.Machine.execHexD s
  | .hexE => Sys2Proof.Machine.execHexE s
  | .hexF => Sys2Proof.Machine.execHexF s
  | .hexLowA => Sys2Proof.Machine.execHexLowA s
  | .hexLowB => Sys2Proof.Machine.execHexLowB s
  | .hexLowC => Sys2Proof.Machine.execHexLowC s
  | .hexLowD => Sys2Proof.Machine.execHexLowD s
  | .hexLowE => Sys2Proof.Machine.execHexLowE s
  | .hexLowF => Sys2Proof.Machine.execHexLowF s
  | .hexNone b => Sys2Proof.Machine.execHexNone b s
  | .err1 => Sys2Proof.Machine.execErr1 s
  | .err2 => Sys2Proof.Machine.execErr2 s
  | .err3 => Sys2Proof.Machine.execErr3 s
  | .err4 => Sys2Proof.Machine.execErr4 s
  | .err5 => Sys2Proof.Machine.execErr5 s
  | .err6 => Sys2Proof.Machine.execErr6 s
  | .err7 => Sys2Proof.Machine.execErr7 s
  | .errUnmapped e => Sys2Proof.Machine.execErrUnmapped e s
  | .encode k p => Sys2Proof.Machine.execEncode k p s
  | .send => Sys2Proof.Machine.execSend s
  | .readframe => Sys2Proof.Machine.execReadframe s
  | .decode arg => Sys2Proof.Machine.execDecode arg s
  | .classify => Sys2Proof.Machine.execClassify s
  | .exchange k p => Sys2Proof.Machine.execExchange k p s
  | .deadline => Sys2Proof.Machine.execDeadline s
  | .reset => Sys2Proof.Machine.execReset s

end Sys2Proof.Machine
end

