-- ==== Sys2Proof/Machine/Parametric.lean ====
section
/-! DEFINITION. The same meanings with the parameters of R8 as an argument: what the block does under
any configuration. `exec` is this function at `Config.spec` (Laws/Dispatch.lean). -/

namespace Sys2Proof.Machine

/-- The meaning of an instruction under the parameters `c` (R8, R40). -/
def execWith (c : Config) (i : Instr) (s : State) : Host.Outcome State Fault Refusal :=
  match i with
  | .frame k data => execFrame k data s
  | .hxx sp u => execHxx sp u s c
  | .hpo sp u => execHpo sp u s c
  | .hst sp u => execHst sp u s c
  | .hrt sp u => execHrt sp u s c
  | .hof sp u => execHof sp u s c
  | .hon sp u => execHon sp u s c
  | .hcm sp u => execHcm sp u s c
  | .hre sp u => execHre sp u s c
  | .hbv sp u => execHbv sp u s c
  | .hgt sp u => execHgt sp u s c
  | .hgv sp u => execHgv sp u s c
  | .hgc sp u => execHgc sp u s c
  | .hgs sp u => execHgs sp u s c
  | .hsc sp u => execHsc sp u s c
  | .hrc sp u => execHrc sp u s c
  | .rxStartStx => execRxStartStx s c
  | .rxStartEtx => execRxStartEtx s c
  | .rxStartCr => execRxStartCr s c
  | .rxStartOther b => execRxStartOther b s c
  | .rxEndStx => execRxEndStx s c
  | .rxEndEtx => execRxEndEtx s c
  | .rxEndCr => execRxEndCr s c
  | .rxEndOther b => execRxEndOther b s c
  | .rxTermCr => execRxTermCr s c
  | .rxTermStx => execRxTermStx s c
  | .rxTermEtx => execRxTermEtx s c
  | .rxTermOther b => execRxTermOther b s c
  | .hex0 => execHex0 s c
  | .hex1 => execHex1 s c
  | .hex2 => execHex2 s c
  | .hex3 => execHex3 s c
  | .hex4 => execHex4 s c
  | .hex5 => execHex5 s c
  | .hex6 => execHex6 s c
  | .hex7 => execHex7 s c
  | .hex8 => execHex8 s c
  | .hex9 => execHex9 s c
  | .hexA => execHexA s c
  | .hexB => execHexB s c
  | .hexC => execHexC s c
  | .hexD => execHexD s c
  | .hexE => execHexE s c
  | .hexF => execHexF s c
  | .hexLowA => execHexLowA s c
  | .hexLowB => execHexLowB s c
  | .hexLowC => execHexLowC s c
  | .hexLowD => execHexLowD s c
  | .hexLowE => execHexLowE s c
  | .hexLowF => execHexLowF s c
  | .hexNone b => execHexNone b s c
  | .err1 => execErr1 s c
  | .err2 => execErr2 s c
  | .err3 => execErr3 s c
  | .err4 => execErr4 s c
  | .err5 => execErr5 s c
  | .err6 => execErr6 s c
  | .err7 => execErr7 s c
  | .errUnmapped e => execErrUnmapped e s c
  | .encode k p => execEncode k p s c
  | .send => execSend s c
  | .readframe => execReadframe s c
  | .decode arg => execDecode arg s c
  | .classify => execClassify s c
  | .exchange k p => execExchange k p s c
  | .deadline => execDeadline s
  | .reset => execReset s

end Sys2Proof.Machine
end

