-- ==== Sys2Proof/Machine/Step.lean ====
section
/-! DEFINITION. One step: the environment moves, one event is chosen and taken (R356), the decoder
reads it and its meaning runs. With nothing to take the block waits (R11). -/

namespace Sys2Proof.Machine

/-- A step of the machine (R20). -/
def step (s : State) : Host.Outcome State Fault Refusal :=
  match selectEvent s.arrive with
  | none => unchanged s.arrive
  | some x =>
    match decode x with
    | .ok i => exec i (s.arrive.take x)
    | .error r => rejectCode r (s.arrive.take x)

/-- A step under the parameters `c` (R8, R40). -/
def stepWith (c : Config) (s : State) : Host.Outcome State Fault Refusal :=
  match selectEvent s.arrive with
  | none => unchanged s.arrive
  | some x =>
    match decode x c with
    | .ok i => execWith c i (s.arrive.take x)
    | .error r => rejectCode r (s.arrive.take x)

/-- The state with the instruction of a table row's bits presented so that the next step takes it
(log entry 10). -/
def State.withFetchWord (s : State) (nbits w : Nat) : State := presentTableWord s nbits w

end Sys2Proof.Machine
end

