-- ==== Sys2Proof/Machine/HostSide.lean ====
section
/-! DEFINITION. The host's operations over the block (R300 to R324), which the scope (R5) puts outside
the block: what a sequence of exchanges means. No step of the machine calls this file. An operation is a
first action and, after each `Done`, a next action from the result registers. Physical values are exact
rationals, and the constants and open values of the conversions are taken as configuration (R300, N17). getTemperatureCorrectionFactor has no contract and is not here (R315). -/

namespace Sys2Proof.Machine

/-! ## Unit conversion (R300 to R308) -/

/-- `toVoltage` (R301). -/
def toVoltage (f : ConversionFactor) (raw : Word) : ℚ := raw.toNat * f.voltage
/-- `rawVoltage`, its inverse (R301). -/
def rawVoltage (f : ConversionFactor) (v : ℚ) : ℚ := v / f.voltage
/-- `toCurrent` (R302). -/
def toCurrent (f : ConversionFactor) (raw : Word) : ℚ := raw.toNat * f.current
/-- `rawCurrent`, its inverse (R302). -/
def rawCurrent (f : ConversionFactor) (i : ℚ) : ℚ := i / f.current
/-- `toTemperature` (R303). -/
def toTemperature (f : ConversionFactor) (raw : Word) : ℚ :=
  (raw.toNat * f.temperatureGain - f.temperatureOffset) / f.temperatureDivisor
/-- `rawTemperature`, its inverse (R303). -/
def rawTemperature (f : ConversionFactor) (t : ℚ) : ℚ :=
  (t * f.temperatureDivisor + f.temperatureOffset) / f.temperatureGain

/-- `ROUND` with the one constraint the source gives it: it fixes the integers of the raw range, so that
the raw word of the physical value of a raw word is that word. Elsewhere it is the parameter's (R307). -/
def hostRound (c : Config) (x : ℚ) : ℤ :=
  if x.den = 1 ∧ 0 ≤ x.num ∧ x.num ≤ 65535 then x.num else c.round x

/-- The raw word of a setpoint: the inverse conversion made an integer by `ROUND` (R307). -/
def roundToWord (c : Config) (x : ℚ) : Word := BitVec.ofInt 16 (hostRound c x)

/-! ## Status (R310, R311) -/

/-- The six flags of the status byte (R310). -/
structure StatusFlags where
  highVoltageOn : Bool
  overcurrentProtection : Bool
  currentInSpecification : Bool
  sensorConnected : Bool
  sensorInSpecification : Bool
  temperatureConversionEffective : Bool
deriving DecidableEq, Repr

/-- The flags of a status word: bits 0 and 1 true when set, bits 2, 3, 4 and 6 true when clear; bits 5
and 7 and the upper byte are ignored (R310, R311). -/
def decodeStatus (w : Word) : StatusFlags where
  highVoltageOn := w.getLsbD 0
  overcurrentProtection := w.getLsbD 1
  currentInSpecification := !w.getLsbD 2
  sensorConnected := !w.getLsbD 3
  sensorInSpecification := !w.getLsbD 4
  temperatureConversionEffective := !w.getLsbD 6

/-- What getMonitoringInfo returns (R312). -/
structure Monitoring where
  status : StatusFlags
  setVoltage : ℚ
  monitoredVoltage : ℚ
  monitoredCurrent : ℚ
  rawTemperature : Word
deriving DecidableEq

/-- The five words of an hpo response (R312). -/
def decodeMonitoring (f : ConversionFactor) (ws : ResWords) : Monitoring :=
  ⟨decodeStatus ws.w0, toVoltage f ws.w1, toVoltage f ws.w2, toCurrent f ws.w3, ws.w4⟩

/-! ## Power function (R317 to R319) -/

/-- Over-Current-Protection (R317, R318). -/
inductive OverCurrentProtection where
  | notInUse
  | automaticRestoration
  | errorInResponseData
deriving DecidableEq, Repr

/-- Output-Voltage-Control (R317, R318). -/
inductive OutputVoltageControl where
  | invalid
  | effectiveness
  | errorInResponseData
deriving DecidableEq, Repr

/-- The two fields of a power-function status word (R317, R318). -/
def decodePower (w : Word) : OverCurrentProtection × OutputVoltageControl :=
  match w.toNat with
  | 0 => (.notInUse, .invalid)
  | 1 => (.automaticRestoration, .invalid)
  | 2 => (.notInUse, .effectiveness)
  | 3 => (.automaticRestoration, .effectiveness)
  | _ => (.errorInResponseData, .errorInResponseData)

/-- The set code `2·v + p` (R319, D36). -/
def setCode (v p : Bool) : Word := BitVec.ofNat 16 (2 * v.toNat + p.toNat)

/-! ## The operations (R304 to R321) -/

/-- The host operations that have a contract. -/
inductive HostOp where
  | getOutputVoltage
  | getOutputCurrent
  | getOutputTemperature
  | getStatus
  | getMonitoringInfo
  | setHighVoltageOutput (on : Bool)
  | setReferenceVoltage (voltage : ℚ)
  | setTemperatureCorrectionFactor (dT1s dT2s dT1 dT2 tb : ℚ)
  | readPowerFunction
  | setOverCurrentProtection (on : Bool)
  | setOutputVoltageControlFunction (on : Bool)
deriving DecidableEq

/-- What an operation returns. -/
inductive HostValue where
  | quantity (x : ℚ)
  | status (f : StatusFlags)
  | monitoring (m : Monitoring)
  | power (p : OverCurrentProtection × OutputVoltageControl)
  | acknowledged
deriving DecidableEq

/-- How an operation fails (R323). R323 says that each kind carries structured context and lists the lengths,
the checksums and the raw code, which are FrameError's and DeviceError's; for ValidationError and
StateQueryError it lists none, and the model gives them none (DESIGN CHOICE, log entry 15). -/
inductive HostError where
  /-- ValidationError, before any I/O (R309); without context (log entry 15). -/
  | validation
  /-- StateQueryError, between two exchanges (R322); without context (log entry 15). -/
  | stateQuery
  /-- FrameError with its context (R323). -/
  | frame (cause : Cause) (expLen actLen : Nat) (chkCalc chkRecv : CharPair)
  /-- DeviceError with the raw code and the message (R323). -/
  | device (e : Word) (text : Option String)
  /-- the timeout kind (R323). -/
  | timeout
  /-- A Success that is not the answer asked for: a wrong echo, which only `ECHO_CHECK` = false lets
  through (R272), or an answer without the word asked for (U9). -/
  | wrongAnswer
deriving DecidableEq

/-- An operation waiting for the `Done` of its last exchange, or of the query that precedes it. -/
inductive HostPhase where
  | last (op : HostOp)
  | query (op : HostOp)
deriving DecidableEq

/-- What an operation does next. -/
inductive HostAction where
  | issue (q : Request) (next : HostPhase)
  | finish (v : HostValue)
  | fail (e : HostError)
deriving DecidableEq

/-- The uppercase codes the host sends. -/
def codeHGV : Cmd := ⟨0x48, 0x47, 0x56⟩
def codeHGC : Cmd := ⟨0x48, 0x47, 0x43⟩
def codeHGT : Cmd := ⟨0x48, 0x47, 0x54⟩
def codeHGS : Cmd := ⟨0x48, 0x47, 0x53⟩
def codeHPO : Cmd := ⟨0x48, 0x50, 0x4F⟩
def codeHON : Cmd := ⟨0x48, 0x4F, 0x4E⟩
def codeHOF : Cmd := ⟨0x48, 0x4F, 0x46⟩
def codeHBV : Cmd := ⟨0x48, 0x42, 0x56⟩
def codeHST : Cmd := ⟨0x48, 0x53, 0x54⟩
def codeHSC : Cmd := ⟨0x48, 0x53, 0x43⟩

/-- The bounds of setTemperatureCorrectionFactor: the raw ranges times their factors, and for `tb` the
temperature function applied to the ends of the raw domain (R308, R316). -/
def correctionInRange (c : Config) (dT1s dT2s dT1 dT2 tb : ℚ) : Bool :=
  slope dT1s && slope dT2s && firstOrder dT1 && firstOrder dT2
    && decide (min (toTemperature c.factors 0) (toTemperature c.factors 0xFFFF) ≤ tb)
    && decide (tb ≤ max (toTemperature c.factors 0) (toTemperature c.factors 0xFFFF))
where
  slope (x : ℚ) : Bool :=
    decide (c.bounds.slopeLow.toNat * c.factors.secondCoefficient ≤ x)
      && decide (x ≤ c.bounds.slopeHigh.toNat * c.factors.secondCoefficient)
  firstOrder (x : ℚ) : Bool :=
    decide (c.bounds.firstLow.toNat * c.factors.firstCoefficient ≤ x)
      && decide (x ≤ c.bounds.firstHigh.toNat * c.factors.firstCoefficient)

/-- The six words of the HST payload, in the order the source leaves open (R316, N14). -/
def correctionWords (c : Config) (dT1s dT2s dT1 dT2 tb : ℚ) (vb : Word) : List Word :=
  List.ofFn (fun i : Fin 6 =>
    (![roundToWord c (dT1s / c.factors.secondCoefficient), roundToWord c (dT2s / c.factors.secondCoefficient),
       roundToWord c (dT1 / c.factors.firstCoefficient), roundToWord c (dT2 / c.factors.firstCoefficient),
       roundToWord c (rawTemperature c.factors tb), vb] : Fin 6 → Word) (c.hstOrder i))

/-- The first action of an operation. The query of Vb that precedes an HST is `vbQuery`, whose command and
payload the spec leaves open (R316, N13; free values, log entry 5). -/
def hostBegin (c : Config) (op : HostOp) : HostAction :=
  match op with
  | .getOutputVoltage => .issue ⟨codeHGV, .raw []⟩ (.last op)
  | .getOutputCurrent => .issue ⟨codeHGC, .raw []⟩ (.last op)
  | .getOutputTemperature => .issue ⟨codeHGT, .raw []⟩ (.last op)
  | .getStatus => .issue ⟨codeHGS, .raw []⟩ (.last op)
  | .getMonitoringInfo => .issue ⟨codeHPO, .raw []⟩ (.last op)
  | .setHighVoltageOutput on => .issue ⟨if on then codeHON else codeHOF, .raw []⟩ (.last op)
  | .setReferenceVoltage v =>
    if 0 ≤ v ∧ v ≤ 65535 * c.factors.voltage then
      .issue ⟨codeHBV, .word (roundToWord c (rawVoltage c.factors v))⟩ (.last op)
    else .fail .validation
  | .setTemperatureCorrectionFactor dT1s dT2s dT1 dT2 tb =>
    if correctionInRange c dT1s dT2s dT1 dT2 tb then .issue ⟨c.vbQuery.cmd, .raw c.vbQuery.payload⟩ (.query op)
    else .fail .validation
  | .readPowerFunction => .issue ⟨c.powerReadCmd, .raw []⟩ (.last op)
  | .setOverCurrentProtection _ => .issue ⟨c.powerReadCmd, .raw []⟩ (.query op)
  | .setOutputVoltageControlFunction _ => .issue ⟨c.powerReadCmd, .raw []⟩ (.query op)

/-- The command code an exchange of an operation sends, which its echo must match (R304, R313). -/
def sentCode (c : Config) : HostPhase → Cmd
  | .last .getOutputVoltage => codeHGV
  | .last .getOutputCurrent => codeHGC
  | .last .getOutputTemperature => codeHGT
  | .last .getStatus => codeHGS
  | .last .getMonitoringInfo => codeHPO
  | .last (.setHighVoltageOutput on) => if on then codeHON else codeHOF
  | .last (.setReferenceVoltage _) => codeHBV
  | .last (.setTemperatureCorrectionFactor _ _ _ _ _) => codeHST
  | .last .readPowerFunction => c.powerReadCmd
  | .last (.setOverCurrentProtection _) => codeHSC
  | .last (.setOutputVoltageControlFunction _) => codeHSC
  | .query (.setTemperatureCorrectionFactor _ _ _ _ _) => c.vbQuery.cmd
  | .query _ => c.powerReadCmd

/-- A result word by its number. -/
def resWord (ws : ResWords) : Fin 6 → Word := ![ws.w0, ws.w1, ws.w2, ws.w3, ws.w4, ws.w5]

/-- The words the host needs of the answer of an exchange (R304 to R317); of the answer to the query of Vb,
as many as reach the word that holds it, which the spec leaves open (N13; a free value, log entry 5). -/
def wordsNeeded (c : Config) : HostPhase → Nat
  | .last .getOutputVoltage => 1
  | .last .getOutputCurrent => 1
  | .last .getOutputTemperature => 1
  | .last .getStatus => 1
  | .last .getMonitoringInfo => 5
  | .last .readPowerFunction => 1
  | .last _ => 0
  | .query (.setTemperatureCorrectionFactor _ _ _ _ _) => c.vbQuery.word + 1
  | .query _ => 1

/-- The next action after an exchange that ended in Success with the expected echo. The raw Vb that an HST
preserves is the word number `vbQuery.word` of the answer to the query, which word being left open by the
spec (R215, R316, N13; a free value, log entry 5). -/
def hostContinue (c : Config) (ph : HostPhase) (ws : ResWords) : HostAction :=
  match ph with
  | .last .getOutputVoltage => .finish (.quantity (toVoltage c.factors ws.w0))
  | .last .getOutputCurrent => .finish (.quantity (toCurrent c.factors ws.w0))
  | .last .getOutputTemperature => .finish (.quantity (toTemperature c.factors ws.w0))
  | .last .getStatus => .finish (.status (decodeStatus ws.w0))
  | .last .getMonitoringInfo => .finish (.monitoring (decodeMonitoring c.factors ws))
  | .last .readPowerFunction => .finish (.power (decodePower ws.w0))
  | .last (.setHighVoltageOutput _) => .finish .acknowledged
  | .last (.setReferenceVoltage _) => .finish .acknowledged
  | .last (.setTemperatureCorrectionFactor _ _ _ _ _) => .finish .acknowledged
  | .last (.setOverCurrentProtection _) => .finish .acknowledged
  | .last (.setOutputVoltageControlFunction _) => .finish .acknowledged
  | .query (.setTemperatureCorrectionFactor dT1s dT2s dT1 dT2 tb) =>
    .issue ⟨codeHST, .words (correctionWords c dT1s dT2s dT1 dT2 tb (resWord ws c.vbQuery.word))⟩
      (.last (.setTemperatureCorrectionFactor dT1s dT2s dT1 dT2 tb))
  | .query (.setOverCurrentProtection on) =>
    match (decodePower ws.w0).2 with
    | .errorInResponseData => .fail .stateQuery
    | .effectiveness => .issue ⟨codeHSC, .word (setCode true on)⟩ (.last (.setOverCurrentProtection on))
    | .invalid => .issue ⟨codeHSC, .word (setCode false on)⟩ (.last (.setOverCurrentProtection on))
  | .query (.setOutputVoltageControlFunction on) =>
    match (decodePower ws.w0).1 with
    | .errorInResponseData => .fail .stateQuery
    | .automaticRestoration =>
      .issue ⟨codeHSC, .word (setCode on true)⟩ (.last (.setOutputVoltageControlFunction on))
    | .notInUse =>
      .issue ⟨codeHSC, .word (setCode on false)⟩ (.last (.setOutputVoltageControlFunction on))
  | .query _ => .fail .wrongAnswer

/-- The next action of an operation after `Done`, from the result registers (R281, R323). -/
def hostResume (c : Config) (ph : HostPhase) (r : Result) : HostAction :=
  match r.kind with
  | .frameError => .fail (.frame r.cause r.expLen r.actLen r.chkCalc r.chkRecv)
  | .deviceError => .fail (.device r.errcode (errMsg c r.errcode))
  | .timeout => .fail .timeout
  | .none => .fail .wrongAnswer
  | .success =>
    if r.cmd = lowerCmd (sentCode c ph) ∧ wordsNeeded c ph ≤ r.nwords then hostContinue c ph r.words
    else .fail .wrongAnswer

end Sys2Proof.Machine
end

