-- ==== Sys2Proof/Safety.lean ====
section
/-! DEFINITION. What holds of every state of a run: the invariants of R42 with the facts they rest on,
what it is for a step to stop, and the properties of the host side that R326 collects. -/

namespace Sys2Proof.Machine

/-- A buffer in canonical form, with no index at or above its capacity, whose first `n` bytes have been
written (R24, R27). -/
def bufferOk (cap : Nat) (m : Memory) (n : Nat) : Prop :=
  m.wf ∧ (∀ x ∈ m, x.1 < cap) ∧ ∀ i < n, (Memory.read m i).isSome

/-- The bounds of the counters (R25, R28, R42). -/
def CountersOk (c : Config) (s : State) : Prop :=
  s.rxLen ≤ c.rxCap ∧ s.txIdx ≤ s.txLen ∧ s.txLen ≤ c.txCap

/-- The frame buffers hold the bytes their counters say (R24, R27). -/
def BuffersOk (c : Config) (s : State) : Prop :=
  bufferOk c.rxCap s.rxBuf s.rxLen ∧ bufferOk c.txCap s.txBuf s.txLen

/-- What holds in each state of the sequencer (R42). -/
def SequencerOk (s : State) : Prop :=
  match s.seqState with
  | .idle => s.rxLen = 0 ∧ s.txLen = 0 ∧ s.txIdx = 0 ∧ s.rxOvf = false ∧ s.rxState = .awaitingStart
  | .sent =>
    8 ≤ s.txLen ∧ s.txIdx < s.txLen ∧ s.rxLen = 0 ∧ s.rxOvf = false ∧ s.rxState = .awaitingStart
  | .awaitingFrame => s.txIdx = s.txLen
  | .decoded => s.rxState = .awaitingStart ∧ (1 ≤ s.rxLen ∨ s.rxOvf = true)

/-- What the recognizer has kept: in AwaitingFrame, nothing before an STX when the preamble is not kept,
the STX first and the ETX after it; in Decoded, a frame bounded by STX and CR unless it overflowed
(R42, R199). -/
def ReceivedOk (c : Config) (s : State) : Prop :=
  (s.rxOvf = true → s.rxLen = c.rxCap) ∧
  (c.rxKeepPreamble = false →
    (s.seqState = .awaitingFrame → s.rxState = .awaitingStart → s.rxLen = 0 ∧ s.rxOvf = false) ∧
    (s.seqState = .awaitingFrame → s.rxState = .awaitingEnd →
      1 ≤ s.rxLen ∧ Memory.read s.rxBuf 0 = some STX) ∧
    (s.seqState = .awaitingFrame → s.rxState = .awaitingTerminator →
      2 ≤ s.rxLen ∧ Memory.read s.rxBuf 0 = some STX) ∧
    (s.seqState = .decoded → s.rxOvf = false →
      3 ≤ s.rxLen ∧ Memory.read s.rxBuf 0 = some STX ∧
        Memory.read s.rxBuf (s.rxLen - 1) = some CR))

/-- The result registers are cleared while an exchange runs (R262, R30), and hold an outcome when
`res_valid` is set (R42); what each kind of outcome leaves at zero (R31 to R35). -/
def ResultOk (c : Config) (s : State) : Prop :=
  (s.seqState ≠ .idle → s.resValid = false) ∧
  (s.resValid = false → s.res = Result.zero) ∧
  (s.resValid = true → s.res.kind ≠ .none) ∧
  (s.res.kind ≠ .frameError → s.res.cause = .none) ∧
  (s.res.kind = .frameError → s.res.cause ≠ .none) ∧
  (s.res.kind ≠ .deviceError → s.res.errcode = 0 ∧ s.res.msg = 0) ∧
  (s.res.kind = .frameError ∨ s.res.kind = .timeout → s.res.nwords = 0 ∧ s.res.words = ResWords.zero) ∧
  s.res.nwords ≤ 6 ∧ s.res.msg ≤ 7 ∧ s.res.expLen ≤ c.rxCap ∧ s.res.actLen ≤ c.rxCap

/-- The recognizer is inside a frame only while the sequencer awaits one (R42). -/
def RecognizerIdle (s : State) : Prop :=
  s.rxState ≠ .awaitingStart → s.seqState = .awaitingFrame

/-- The invariant of every state reachable from reset (R42). -/
structure Inv (c : Config) (s : State) : Prop where
  counters : CountersOk c s
  buffers : BuffersOk c s
  sequencer : SequencerOk s
  recognizer : RecognizerIdle s
  received : ReceivedOk c s
  result : ResultOk c s

/-- A step that neither faults nor is refused. -/
def stepCompletes (c : Config) (s : State) : Prop := ∃ t, stepWith c s = .next t

/-- The state reached after `n` steps that all complete. -/
def runWith (c : Config) : Nat → State → Option State
  | 0, s => some s
  | n + 1, s =>
    match stepWith c s with
    | .next t => runWith c n t
    | .fault _ => none
    | .refused _ => none

/-- The DATA length of the response of each command, as R210 lists them. -/
def responseSize : Command → Nat
  | .hxx => 4
  | .hpo => 20
  | .hst => 24
  | .hrt => 24
  | .hof => 0
  | .hon => 0
  | .hcm => 0
  | .hre => 0
  | .hbv => 0
  | .hgt => 4
  | .hgv => 4
  | .hgc => 4
  | .hgs => 4
  | .hsc => 0
  | .hrc => 4

/-- The CMD fields of the 15 commands in their 8 spellings (R108). -/
def knownFields : List (BitVec 24) :=
  allCommands.flatMap (fun m =>
    [(⟨false, false, false⟩ : Spelling), ⟨false, false, true⟩, ⟨false, true, false⟩,
     ⟨false, true, true⟩, ⟨true, false, false⟩, ⟨true, false, true⟩, ⟨true, true, false⟩,
     ⟨true, true, true⟩].map (commandBits m))

/-- The state reached by a list of instructions, one after another, that all complete. -/
def execRun (c : Config) : List Instr → State → Option State
  | [], s => some s
  | i :: is, s =>
    match execWith c i s with
    | .next t => execRun c is t
    | .fault _ => none
    | .refused _ => none

/-- The received frame `rx_buf[0:rx_len]` is the byte sequence `f`, of at most `cap` bytes (R160). -/
def HoldsFrame (cap : Nat) (s : State) (f : List Byte) : Prop :=
  s.rxLen = f.length ∧ f.length ≤ cap ∧ ∀ i < f.length, Memory.read s.rxBuf i = f[i]?

/-- What `keep(b)` does on a buffer of capacity `cap`, and the states that the recognizer and the
sequencer go to; nothing else changes, and no other index of the buffer (R151). -/
def ByteKept (cap : Nat) (b : Byte) (rs : RxState) (q : SeqState) (s t : State) : Prop :=
  t = { s with
        rxBuf := t.rxBuf
        rxLen := if s.rxLen < cap then s.rxLen + 1 else s.rxLen
        rxOvf := if s.rxLen < cap then s.rxOvf else true
        rxState := rs
        seqState := q
        env := { s.env with output := none } } ∧
  ∀ i, Memory.read t.rxBuf i = if s.rxLen < cap ∧ i = s.rxLen then some b else Memory.read s.rxBuf i

/-- What EXCHANGE start does with the frame `f` of a request whose CMD is sent as `k`: the transmit
buffer holds `f` from index 0 on and its other indexes are as before, the receive state and every result
register are cleared, the sequencer is in Sent; nothing else changes (R262). -/
def ExchangeStarted (k : Cmd) (f : List Byte) (s t : State) : Prop :=
  t = { s with
        txBuf := t.txBuf
        txLen := f.length
        txIdx := 0
        lastCmd := k
        rxLen := 0
        rxOvf := false
        rxState := .awaitingStart
        resValid := false
        res := Result.zero
        seqState := .sent
        env := { s.env with output := none } } ∧
  ∀ i, Memory.read t.txBuf i = if i < f.length then f[i]? else Memory.read s.txBuf i

/-- What the end of an exchange with the result registers `r` does; nothing else changes (R274, R357). -/
def ExchangeEnded (r : Result) (s t : State) : Prop :=
  t = { s with
        res := r
        rxLen := 0
        rxOvf := false
        txLen := 0
        txIdx := 0
        resValid := true
        seqState := .idle
        env := { s.env with output := some .done } }

/-- The layout of a frame with the CMD field `k` and the DATA field `d` (R64, R95). -/
def FrameLayout (k : Cmd) (d f : List Byte) : Prop :=
  f.length = 8 + d.length ∧ byteAt f 0 = 0x02 ∧ slice f 1 4 = k.toList ∧
  slice f 4 (f.length - 4) = d ∧ byteAt f (f.length - 4) = 0x03 ∧
  slice f (f.length - 3) (f.length - 1) = (hexPair (chk (slice f 0 (f.length - 3)))).toList ∧
  byteAt f (f.length - 1) = 0x0D

/-- Whether a check of DECODE fails on a frame, each check by itself (R182 to R195). -/
def checkFails (c : Config) (f : List Byte) (ovf : Bool) : Cause → Prop
  | .none => False
  | .overflow => ovf = true
  | .tooShort => f.length < 8
  | .badStart => byteAt f 0 ≠ 0x02
  | .badTerminator => byteAt f (f.length - 1) ≠ 0x0D
  | .badEtx => byteAt f (f.length - 4) ≠ 0x03
  | .unknownCommand => catalogSize c (lowerCmd (cmdField f)) = none
  | .lengthMismatch => catalogSize c (lowerCmd (cmdField f)) ≠ some (f.length - 8)
  | .checksumMismatch => checksumFails c (chk (slice f 0 (f.length - 3))) (chkField f) = true
  | .badHexDigit => ∃ b ∈ slice f 4 (f.length - 4), hexVal c b = none
  | .echoMismatch => False

/-! ## The testable properties of the host side (R326) -/

/-- The conversions of these factors have inverses (R300). -/
def FactorsInvertible (f : ConversionFactor) : Prop :=
  f.voltage ≠ 0 ∧ f.current ≠ 0 ∧ f.temperatureGain ≠ 0 ∧ f.temperatureDivisor ≠ 0

/-- Unit round trip: the raw word of the physical value of a raw word is that word (R307, R326). -/
def UnitRoundTrip (c : Config) : Prop :=
  ∀ raw : Word, roundToWord c (rawVoltage c.factors (toVoltage c.factors raw)) = raw ∧
    roundToWord c (rawCurrent c.factors (toCurrent c.factors raw)) = raw ∧
    roundToWord c (rawTemperature c.factors (toTemperature c.factors raw)) = raw

/-- Status decomposition: each flag is its own bit of the status word, the first two true when it is set and
the others when it is clear (R310, R326). -/
def StatusDecomposition : Prop :=
  ∀ w : Word, ((decodeStatus w).highVoltageOn = true ↔ w.toNat / 2 ^ 0 % 2 = 1) ∧
    ((decodeStatus w).overcurrentProtection = true ↔ w.toNat / 2 ^ 1 % 2 = 1) ∧
    ((decodeStatus w).currentInSpecification = true ↔ w.toNat / 2 ^ 2 % 2 = 0) ∧
    ((decodeStatus w).sensorConnected = true ↔ w.toNat / 2 ^ 3 % 2 = 0) ∧
    ((decodeStatus w).sensorInSpecification = true ↔ w.toNat / 2 ^ 4 % 2 = 0) ∧
    ((decodeStatus w).temperatureConversionEffective = true ↔ w.toNat / 2 ^ 6 % 2 = 0)

/-- Validation before I/O: a setpoint out of its range fails as the operation's first action, so that no
request is issued (R309, R314, R316, R326). -/
def ValidatesBeforeIO (c : Config) : Prop :=
  (∀ v : ℚ, v < 0 ∨ 65535 * c.factors.voltage < v →
    hostBegin c (.setReferenceVoltage v) = .fail .validation) ∧
  (∀ a b x y tb : ℚ, correctionInRange c a b x y tb = false →
    hostBegin c (.setTemperatureCorrectionFactor a b x y tb) = .fail .validation)

/-- Ambiguous prerequisite: a power setter that reads a word outside 0 to 3 fails with StateQueryError and
issues no HSC (R320 to R322, R326). -/
def AmbiguousPrerequisiteFails (c : Config) : Prop :=
  ∀ (ws : ResWords) (on : Bool), 4 ≤ ws.w0.toNat →
    hostContinue c (.query (.setOverCurrentProtection on)) ws = .fail .stateQuery ∧
    hostContinue c (.query (.setOutputVoltageControlFunction on)) ws = .fail .stateQuery

end Sys2Proof.Machine
end

