-- ==== Sys2Proof/Certificates/Slice0/Obligations.lean ====
section
/-! DEFINITION. The statements for the provers. They formalise the numbered rules of spec/; a statement
that rests on a choice of the model says so and names its log entry. -/

open Sys2Proof Sys2Proof.Machine

/-! ## Encoding -/

/-- Decode of encode is the identity: every well-formed instruction, under every value of the parameters,
is read back from its code with every operand (R64, R90, R95, R100, R105, R106, R240). -/
def Obligations.DecodeOfEncode : Prop :=
  ∀ (c : Config) (i : Instr), i.wf c = true → decode (encode i) c = .ok i

/-- Encode of decode is the identity: every code that the decoder accepts is read as a well-formed
instruction, and is that instruction's code (R64, R90, R95, R100, R105, R106, R240). -/
def Obligations.EncodeOfDecode : Prop :=
  ∀ (c : Config) (x : Code) (i : Instr), decode x c = .ok i → i.wf c = true ∧ encode i = x

/-- Words written out from the tables decode to the instructions they stand for: the frame of R113, codes
of R106, a byte of each class of R105, digits of R100, error codes of R247 and R249. -/
def Obligations.WrittenCodesDecode : Prop :=
  (decode (.frameCode [0x02, 0x48, 0x47, 0x56, 0x03, 0x45, 0x41, 0x0D]) =
    .ok (.frame ⟨0x48, 0x47, 0x56⟩ [])) ∧
  (decode (.cmd24 0b010010000100011101010110 (.request (.raw []))) =
    .ok (.hgv ⟨false, false, false⟩ (.request (.raw [])))) ∧
  (decode (.cmd24 0b011010000111100001111000 .dispatch) = .ok (.hxx ⟨true, true, true⟩ .dispatch)) ∧
  (decode (.cmd24 0b011010000100011001110110 .dispatch) = .error .unknownCommand) ∧
  (decode (.byte8 .awaitingStart 0b00000010) = .ok .rxStartStx) ∧
  (decode (.byte8 .awaitingEnd 0b00000011) = .ok .rxEndEtx) ∧
  (decode (.byte8 .awaitingTerminator 0b00001101) = .ok .rxTermCr) ∧
  (decode (.byte8 .awaitingStart 0b10000010) = .ok (.rxStartOther 0x82)) ∧
  (decode (.hexdigit8 0b01000001) = .ok .hexA) ∧
  (decode (.hexdigit8 0b01100110) = .ok .hexLowF) ∧
  (decode (.hexdigit8 0b01000111) = .ok (.hexNone 0x47)) ∧
  (decode (.errcode16 0b0000000000000111) = .ok .err7) ∧
  (decode (.errcode16 0b0000000100000001) = .ok (.errUnmapped 0x0101))

/-- R106: a CMD field is the command with the pattern M exactly when `(c AND 0xDFDFDF) = M`, exactly when
its three bytes in uppercase are those of M; and the dispatcher, which folds to lowercase and looks the
code up (R212), accepts the same fields. -/
def Obligations.MaskMatchIsCaseFolding : Prop :=
  (∀ (k : Cmd) (m : Command),
    (decodeCommand (cmdToBits k) = some m ↔ cmdToBits k &&& 0xDFDFDF#24 = commandMatch m) ∧
    (decodeCommand (cmdToBits k) = some m ↔ upperCmd k = cmdOfBits (commandMatch m))) ∧
  (∀ k : Cmd, (decodeCommand (cmdToBits k)).isSome = (dispatchLookup Config.spec k).isSome)

/-- R108: of the values of the CMD field, the 15·8 = 120 of the commands in their spellings match a row,
each exactly one; before the dispatcher every other field is rejected as unknown, and in a request it is an
EXCHANGE of those three bytes. -/
def Obligations.KnownCommandFields : Prop :=
  (∀ w : BitVec 24, (decodeCommand w).isSome = true ↔ w ∈ knownFields) ∧
  (knownFields.Nodup ∧ knownFields.length = 120) ∧
  (∀ w : BitVec 24, w ∉ knownFields → decode (.cmd24 w .dispatch) = .error .unknownCommand ∧
    ∀ p, decode (.cmd24 w (.request p)) = .ok (.exchange (cmdOfBits w) p))

/-! ## Pure functions -/

/-- R102: `unhex4` is none exactly when some `hexval` is none, else the positional value of the four
digits, and `unhex2` likewise; `unhex4(hex4(w)) = w`; and `hex4(unhex4(g)) = upper(g)`. -/
def Obligations.HexConversionLaws : Prop :=
  ∀ c : Config,
    (∀ g3 g2 g1 g0 : Byte, unhexWord c g3 g2 g1 g0 = none ↔
      hexVal c g3 = none ∨ hexVal c g2 = none ∨ hexVal c g1 = none ∨ hexVal c g0 = none) ∧
    (∀ (g3 g2 g1 g0 : Byte) (w : Word), unhexWord c g3 g2 g1 g0 = some w →
      (∃ d3 d2 d1 d0, hexVal c g3 = some d3 ∧ hexVal c g2 = some d2 ∧ hexVal c g1 = some d1 ∧
        hexVal c g0 = some d0 ∧ w.toNat = 4096 * d3 + 256 * d2 + 16 * d1 + d0) ∧
      hexWord w = [upperByte g3, upperByte g2, upperByte g1, upperByte g0]) ∧
    (∀ g : CharPair, unhexPair c g = none ↔ hexVal c g.first = none ∨ hexVal c g.second = none) ∧
    (∀ (g : CharPair) (v : Byte), unhexPair c g = some v →
      ∃ d1 d0, hexVal c g.first = some d1 ∧ hexVal c g.second = some d0 ∧ v.toNat = 16 * d1 + d0) ∧
    (∀ ws : List Word, parseWords c (ws.flatMap hexWord) = some ws)

/-- R104: `chk` is the sum of the unsigned bytes modulo 256, 0 of the empty sequence; adding modulo 256 at
each step gives the same value; the checksum field of every frame is `hex2(chk(f[0:L-3]))`; the worked
example. -/
def Obligations.ChecksumLaws : Prop :=
  (∀ s : List Byte, (chk s).toNat = (s.map BitVec.toNat).sum % 256) ∧ chk [] = 0 ∧
  (∀ s : List Byte, chk s = s.foldl (fun a b => a + b) 0) ∧
  (∀ (k : Cmd) (d : List Byte),
    chkField (frameBytes k d) =
      hexPair (chk (slice (frameBytes k d) 0 ((frameBytes k d).length - 3)))) ∧
  (chk [0x02, 0x48, 0x47, 0x56, 0x03] = 0xEA ∧ hexPair 0xEA = ⟨0x45, 0x41⟩)

/-- R105: the class of a byte is decided by all its 8 bits; 253 values are OTHER; the class alone, with the
recognizer's state, decides the transition. -/
def Obligations.ByteClasses : Prop :=
  (∀ b : Byte, (byteClass b = .stx ↔ b = 0x02) ∧ (byteClass b = .etx ↔ b = 0x03) ∧
    (byteClass b = .cr ↔ b = 0x0D) ∧ (byteClass b = .other ↔ b ≠ 0x02 ∧ b ≠ 0x03 ∧ b ≠ 0x0D)) ∧
  byteClass 0x82 = .other ∧
  (∀ (c : Config) (s : State) (b b' : Byte), byteClass b = byteClass b' →
    (recognize c b s).rxState = (recognize c b' s).rxState ∧
    (recognize c b s).seqState = (recognize c b' s).seqState ∧
    (recognize c b s).rxLen = (recognize c b' s).rxLen ∧
    (recognize c b s).rxOvf = (recognize c b' s).rxOvf)

/-! ## FRAME and ENCODE -/

/-- FRAME completes with the frame of its fields, laid out as R64 says, with the checksum of R95 (R90,
R91). Nothing changes but the value returned (log entry 9). -/
def Obligations.FrameCompletes : Prop :=
  ∀ (k : Cmd) (d : List Byte) (s : State),
    FrameLayout k d (frameBytes k d) ∧
    exec (.frame k d) s = .next (s.withOutput (some (.returned (.bytes (frameBytes k d)))))

/-- ENCODE completes, when the DATA field is at most `TX_MAX_DATA` = 24 bytes, with a frame whose CMD is
`upper(cmd)` and whose DATA is `data_bytes(payload)` (R131, R134, R135). Nothing changes but the value
returned (log entry 9). -/
def Obligations.EncodeCompletes : Prop :=
  ∀ (k : Cmd) (p : Payload) (s : State), (dataBytes p).length ≤ 24 →
    ∃ f, FrameLayout (upperCmd k) (dataBytes p) f ∧
      exec (.encode k p) s = .next (s.withOutput (some (.returned (.bytes f))))

/-- The DATA field of each form of payload: raw bytes as they are; a word as its four digits in uppercase,
the most significant first; words in sequence order, word k at places 4k to 4k+3 (R101, R132). That the most
significant digit comes first is R60's, which supplies it from general knowledge (log entry 13,
PRESUMED). -/
def Obligations.PayloadForms : Prop :=
  (∀ bs, dataBytes (.raw bs) = bs) ∧
  (∀ w : Word, dataBytes (.word w) = dataBytes (.words [w]) ∧ (dataBytes (.word w)).length = 4 ∧
    ∀ j < 4, (byteAt (dataBytes (.word w)) j).toNat =
      if w.toNat / 16 ^ (3 - j) % 16 < 10 then 0x30 + w.toNat / 16 ^ (3 - j) % 16
      else 0x41 + (w.toNat / 16 ^ (3 - j) % 16 - 10)) ∧
  (∀ (ws : List Word) (n : Nat), n < ws.length →
    slice (dataBytes (.words ws)) (4 * n) (4 * n + 4) = dataBytes (.word (ws.getD n 0))) ∧
  (∀ ws : List Word, (dataBytes (.words ws)).length = 4 * ws.length) ∧
  dataBytes (.words []) = []

/-- R133: DATA longer than `TX_MAX_DATA` is refused, whatever its value: by ENCODE in any state, and by a
`Req` of any code in Idle; no state changes and no byte is sent. -/
def Obligations.PayloadTooLongRefused : Prop :=
  ∀ (c : Config) (p : Payload) (s : State), c.txMaxData < (dataBytes p).length →
    (∀ k, execWith c (.encode k p) s = .next (s.withOutput (some (.refused .payloadTooLong)))) ∧
    (s.seqState = .idle →
      (∀ k, execWith c (.exchange k p) s = .next (s.withOutput (some (.refused .payloadTooLong)))) ∧
      ∀ m sp, execWith c (commandInstr m sp (.request p)) s =
        .next (s.withOutput (some (.refused .payloadTooLong))))

/-- R138: for every code of the catalog, in any case, and every sequence of exactly `size(k)/4` DataWords,
ENCODE builds a frame that DECODE reads back as the lowercase code with those words; an HBV request of one
word is a frame of 12 bytes that does not decode. -/
def Obligations.EncodeDecodeRoundTrip : Prop :=
  (∀ c : Config, c.wf = true → ∀ r ∈ c.catalog, ∀ (k : Cmd) (ws : List Word),
    lowerCmd k = r.code → ws.length = r.size / 4 →
      ∃ f, encodeFrame c k (.words ws) = .ok f ∧ (decodeFrame c f false).result = .ok r.code ws) ∧
  (∀ w : Word, ∃ f, encodeFrame Config.spec ⟨0x48, 0x42, 0x56⟩ (.word w) = .ok f ∧ f.length = 12 ∧
    (decodeFrame Config.spec f false).result = .frameError .lengthMismatch)

/-! ## DECODE -/

/-- DECODE completes on any byte sequence (with `rx_ovf` = 0), and in Decoded on the received frame that
RXBUF holds, with the result and the context of `decode`; it changes no state (R180; the value returned is
the model's, log entry 9). In every other state of the sequencer no received frame is decoded, whatever
RXBUF holds (R70; that nothing changes there is log entry 7). -/
def Obligations.DecodeCompletes : Prop :=
  (∀ (f : List Byte) (s : State), exec (.decode (.bytes f)) s =
    .next (s.withOutput (some (.returned (.decoded (decodeFrame Config.spec f false)))))) ∧
  (∀ (f : List Byte) (s : State), s.seqState = .decoded → HoldsFrame 32 s f →
    exec (.decode .received) s =
      .next (s.withOutput (some (.returned (.decoded (decodeFrame Config.spec f s.rxOvf)))))) ∧
  (∀ s : State, s.seqState ≠ .decoded → exec (.decode .received) s = .next (s.withOutput none))

/-- The checks are made in order and the first that fails gives the cause; DECODE accepts exactly when none
fails, and then with the lowercase code of the CMD field and the words of the DATA field, under either
checksum comparison (R182 to R198, R350). -/
def Obligations.FirstFailingCheckIsTheCause : Prop :=
  ∀ (c : Config) (f : List Byte) (ovf : Bool), c.wf = true →
    (∀ x : Cause, (decodeFrame c f ovf).result = .frameError x ↔
      checkFails c f ovf x ∧ ∀ y : Cause, (causeCode y).toNat < (causeCode x).toNat →
        ¬ checkFails c f ovf y) ∧
    ((∃ k ws, (decodeFrame c f ovf).result = .ok k ws) ↔ ∀ x : Cause, ¬ checkFails c f ovf x) ∧
    (∀ k ws, (decodeFrame c f ovf).result = .ok k ws →
      k = lowerCmd (cmdField f) ∧ parseWords c (dataField f) = some ws)

/-- What DECODE accepts, with the strict checksum comparison: exactly the frames of a catalog command in any
spelling, whose DATA has the catalog's length and parses, with the right checksum (R196, R198, R199). -/
def Obligations.DecodeAcceptsExactly : Prop :=
  ∀ (c : Config) (f : List Byte) (k : Cmd) (ws : List Word), c.wf = true → c.chkCaseStrict = true →
    ((decodeFrame c f false).result = .ok k ws ↔
      ∃ (cmd : Cmd) (d : List Byte), f = frameBytes cmd d ∧ lowerCmd cmd = k ∧
        catalogSize c k = some d.length ∧ parseWords c d = some ws ∧ ws.length = d.length / 4)

/-- R197: the context values DECODE supplies, for each way it ends. -/
def Obligations.DecodeContext : Prop :=
  ∀ (c : Config) (f : List Byte) (ovf : Bool),
    (decodeFrame c f ovf).actLen = f.length ∧
    (((∃ k ws, (decodeFrame c f ovf).result = .ok k ws) ∨
        (decodeFrame c f ovf).result = .frameError .lengthMismatch ∨
        (decodeFrame c f ovf).result = .frameError .checksumMismatch ∨
        (decodeFrame c f ovf).result = .frameError .badHexDigit) →
      (decodeFrame c f ovf).cmd = lowerCmd (cmdField f) ∧
      catalogSize c (lowerCmd (cmdField f)) = some ((decodeFrame c f ovf).expLen - 8) ∧
      8 ≤ (decodeFrame c f ovf).expLen) ∧
    (∀ x ∈ [Cause.overflow, .tooShort, .badStart, .badTerminator, .badEtx, .unknownCommand],
      (decodeFrame c f ovf).result = .frameError x →
        (decodeFrame c f ovf).cmd = ⟨0, 0, 0⟩ ∧ (decodeFrame c f ovf).expLen = 0) ∧
    ((decodeFrame c f ovf).chkRecv =
      if ovf = false ∧ 8 ≤ f.length then ⟨byteAt f (f.length - 3), byteAt f (f.length - 2)⟩ else ⟨0, 0⟩) ∧
    (((∃ k ws, (decodeFrame c f ovf).result = .ok k ws) ∨
        (decodeFrame c f ovf).result = .frameError .checksumMismatch ∨
        (decodeFrame c f ovf).result = .frameError .badHexDigit) →
      (decodeFrame c f ovf).chkCalc = hexPair (chk (slice f 0 (f.length - 3)))) ∧
    (∀ x ∈ [Cause.overflow, .tooShort, .badStart, .badTerminator, .badEtx, .unknownCommand,
        .lengthMismatch],
      (decodeFrame c f ovf).result = .frameError x → (decodeFrame c f ovf).chkCalc = ⟨0, 0⟩)

/-- R183: a frame longer than `RX_CAP` fails DECODE's other checks too, so that OVERFLOW, which the block
reports of its first `RX_CAP` bytes, is a failure of the same kind. -/
def Obligations.OverflowKeepsTheKind : Prop :=
  ∀ (c : Config) (g : List Byte), c.wf = true → c.rxCap < g.length →
    (∃ x, (decodeFrame c g false).result = .frameError x) ∧
    (decodeFrame c (g.take c.rxCap) true).result = .frameError .overflow

/-- R191: for a known command the frame size is 8 more than the size, and a frame of any other length for
that command fails; for each row of the catalog there is exactly one length that DECODE can accept, 8 more
than its size; the lengths DECODE can accept at all are 8, 12, 28 and 32. -/
def Obligations.OneLengthPerCommand : Prop :=
  (∀ (c : Config) (f : List Byte) (ovf : Bool) (n : Nat), catalogSize c (lowerCmd (cmdField f)) = some n →
    (∃ e, dispatchLookup c (cmdField f) = some e ∧ e.size = n ∧ e.frameSize = 8 + n) ∧
    (f.length ≠ 8 + n → ∃ x, (decodeFrame c f ovf).result = .frameError x)) ∧
  (∀ c : Config, c.wf = true → ∀ r ∈ c.catalog, ∀ n : Nat,
    (∃ f ws, f.length = n ∧ (decodeFrame c f false).result = .ok r.code ws) ↔ n = 8 + r.size) ∧
  (∀ n : Nat, (∃ f k ws, f.length = n ∧ (decodeFrame Config.spec f false).result = .ok k ws) ↔
    n ∈ [8, 12, 28, 32])

/-- R193: with the strict comparison exactly the uppercase rendering passes; with the other, also the same
characters in lowercase, where lowercase digits are accepted. -/
def Obligations.ChecksumComparison : Prop :=
  ∀ (c : Config) (v : Byte) (r : CharPair),
    (c.chkCaseStrict = true → (checksumFails c v r = false ↔ r = hexPair v)) ∧
    (c.chkCaseStrict = false → (checksumFails c v r = false ↔
      CharPair.mk (upperByte r.first) (upperByte r.second) = hexPair v ∧
        (c.rxHexAcceptLower = true ∨ r = hexPair v)))

/-! ## The catalog -/

/-- Before the dispatcher each of the 15 codes HXX, HPO, HST, HRT, HOF, HON, HCM, HRE, HBV, HGT, HGV, HGC,
HGS, HSC and HRC, in every spelling, completes with the facts of R210 and R211: its code in lowercase, its
size, its frame size and its number of words; no state changes but the value returned (log entries 8 and
9). A field is reported exactly when it is one of the 120 (R212). -/
def Obligations.DispatcherReports : Prop :=
  (∀ (m : Command) (sp : Spelling) (s : State), exec (commandInstr m sp .dispatch) s =
    .next (s.withOutput (some (.returned (.entry (some
      ⟨cmdOfBits (commandBits m ⟨true, true, true⟩), responseSize m, 8 + responseSize m,
        responseSize m / 4⟩)))))) ∧
  (∀ k : Cmd, dispatchLookup Config.spec k = none ↔ cmdToBits k ∉ knownFields)

/-! ## Requests -/

/-- A request of each of the 15 codes HXX, HPO, HST, HRT, HOF, HON, HCM, HRE, HBV, HGT, HGV, HGC, HGS, HSC
and HRC, in every spelling and with every payload of at most 24 bytes of DATA, starts the exchange: the
frame has the code in uppercase and the payload's DATA, and everything else is as R262 says. -/
def Obligations.CommandRequestStartsExchange : Prop :=
  ∀ (m : Command) (sp : Spelling) (p : Payload) (s : State),
    s.seqState = .idle → (dataBytes p).length ≤ 24 →
      ∃ f t, FrameLayout (cmdOfBits (commandMatch m)) (dataBytes p) f ∧
        ExchangeStarted (cmdOfBits (commandMatch m)) f s t ∧
        exec (commandInstr m sp (.request p)) s = .next t

/-- R262: an accepted request of any three bytes builds the frame and enters Sent in one step; every result
register and the receive state are cleared, no byte is sent, none is taken, the source is not emptied. -/
def Obligations.ExchangeStarts : Prop :=
  ∀ (k : Cmd) (p : Payload) (s : State), s.seqState = .idle → (dataBytes p).length ≤ 24 →
    ∃ f t, FrameLayout (upperCmd k) (dataBytes p) f ∧ ExchangeStarted (upperCmd k) f s t ∧
      exec (.exchange k p) s = .next t

/-- R261: outside Idle a request of any code is refused with BUSY and changes nothing; in Idle with a DATA
field above `TX_MAX_DATA` it is refused with PAYLOAD_TOO_LONG and changes nothing. -/
def Obligations.RequestRefused : Prop :=
  ∀ (c : Config) (p : Payload) (s : State) (i : Instr),
    ((∃ k, i = .exchange k p) ∨ ∃ m sp, i = commandInstr m sp (.request p)) →
      (s.seqState ≠ .idle → execWith c i s = .next (s.withOutput (some (.refused .busy)))) ∧
      (s.seqState = .idle → c.txMaxData < (dataBytes p).length →
        execWith c i s = .next (s.withOutput (some (.refused .payloadTooLong)))) ∧
      (s.seqState = .idle → (dataBytes p).length ≤ c.txMaxData →
        ∃ t, execWith c i s = .next t ∧ t.seqState = .sent ∧ t.env.output = none)

/-- Whichever instruction the code of a request decodes to, it does what EXCHANGE does with those three
bytes: that the 15 codes have rows of their own does not show (R131, R261; log entry 8). -/
def Obligations.RequestCodeIsImmaterial : Prop :=
  ∀ (c : Config) (k : Cmd) (p : Payload) (s : State),
    ∃ i, decode (.cmd24 (cmdToBits k) (.request p)) c = .ok i ∧
      execWith c i s = execWith c (.exchange k p) s

/-! ## The transmit step -/

/-- R137: SEND in Sent gives `tx_buf[tx_idx]` to the sink, advances `tx_idx`, and goes to AwaitingFrame
after the last byte; in any other state it does nothing. -/
def Obligations.SendStep : Prop :=
  (∀ (s : State) (b : Byte), s.seqState = .sent → s.txIdx < 32 → Memory.read s.txBuf s.txIdx = some b →
    exec .send s = .next { s with
      txIdx := s.txIdx + 1
      seqState := if s.txIdx + 1 = s.txLen then .awaitingFrame else .sent
      env := { s.env with sink := s.env.sink ++ [b], output := some (.tx b) } }) ∧
  (∀ s : State, s.seqState ≠ .sent → exec .send s = .next (s.withOutput none))

/-- The whole request goes to the sink in order, STX first and CR last, one byte for each SEND, and the
sequencer is in AwaitingFrame exactly after the last; nothing else changes (R62, R73, R137, R262). -/
def Obligations.WholeRequestIsSent : Prop :=
  ∀ (c : Config) (k : Cmd) (p : Payload) (s t : State), s.seqState = .idle →
    (dataBytes p).length ≤ c.txMaxData → execWith c (.exchange k p) s = .next t →
      (∀ n < 8 + (dataBytes p).length, ∃ u,
        execRun c (List.replicate n .send) t = some u ∧ u.seqState = .sent ∧ u.txIdx = n ∧
        u.env.sink = s.env.sink ++ (frameBytes (upperCmd k) (dataBytes p)).take n) ∧
      execRun c (List.replicate (8 + (dataBytes p).length) .send) t = some { t with
        txIdx := 8 + (dataBytes p).length
        seqState := .awaitingFrame
        env := { t.env with
          sink := s.env.sink ++ frameBytes (upperCmd k) (dataBytes p)
          output := some (.tx 0x0D) } }

/-! ## The recognizer -/

/-- The rows that move the recognizer: STX in AwaitingStart, ETX in AwaitingEnd, CR in AwaitingTerminator
keep their byte, whether it fits or overflows, and go to the next state; the CR completes the frame (R151,
R152, R157, R160). -/
def Obligations.RowsThatAdvance : Prop :=
  ∀ s : State, s.seqState = .awaitingFrame →
    (s.rxState = .awaitingStart →
      ∃ t, exec .rxStartStx s = .next t ∧ ByteKept 32 0x02 .awaitingEnd .awaitingFrame s t) ∧
    (s.rxState = .awaitingEnd →
      ∃ t, exec .rxEndEtx s = .next t ∧ ByteKept 32 0x03 .awaitingTerminator .awaitingFrame s t) ∧
    (s.rxState = .awaitingTerminator →
      ∃ t, exec .rxTermCr s = .next t ∧ ByteKept 32 0x0D .awaitingStart .decoded s t)

/-- The rows that keep their byte and stay: STX, CR and OTHER in AwaitingEnd, STX, ETX and OTHER in
AwaitingTerminator (R151, R156, R158, R159, R161, R162, R163). -/
def Obligations.RowsThatStay : Prop :=
  ∀ s : State, s.seqState = .awaitingFrame →
    (s.rxState = .awaitingEnd →
      (∃ t, exec .rxEndStx s = .next t ∧ ByteKept 32 0x02 .awaitingEnd .awaitingFrame s t) ∧
      (∃ t, exec .rxEndCr s = .next t ∧ ByteKept 32 0x0D .awaitingEnd .awaitingFrame s t) ∧
      ∀ b, ∃ t, exec (.rxEndOther b) s = .next t ∧ ByteKept 32 b .awaitingEnd .awaitingFrame s t) ∧
    (s.rxState = .awaitingTerminator →
      (∃ t, exec .rxTermStx s = .next t ∧ ByteKept 32 0x02 .awaitingTerminator .awaitingFrame s t) ∧
      (∃ t, exec .rxTermEtx s = .next t ∧ ByteKept 32 0x03 .awaitingTerminator .awaitingFrame s t) ∧
      ∀ b, ∃ t, exec (.rxTermOther b) s = .next t ∧
        ByteKept 32 b .awaitingTerminator .awaitingFrame s t)

/-- The rows of the preamble, ETX, CR and OTHER in AwaitingStart: the byte is discarded, nothing stored;
and under `RX_KEEP_PREAMBLE` it is kept; the recognizer stays (R153, R154, R155). -/
def Obligations.PreambleRows : Prop :=
  (∀ s : State, s.seqState = .awaitingFrame → s.rxState = .awaitingStart →
    exec .rxStartEtx s = .next (s.withOutput none) ∧
    exec .rxStartCr s = .next (s.withOutput none) ∧
    ∀ b, exec (.rxStartOther b) s = .next (s.withOutput none)) ∧
  (∀ (c : Config) (s : State), c.rxKeepPreamble = true → s.seqState = .awaitingFrame →
    s.rxState = .awaitingStart →
      (∃ t, execWith c .rxStartEtx s = .next t ∧
        ByteKept c.rxCap 0x03 .awaitingStart .awaitingFrame s t) ∧
      (∃ t, execWith c .rxStartCr s = .next t ∧
        ByteKept c.rxCap 0x0D .awaitingStart .awaitingFrame s t) ∧
      ∀ b, ∃ t, execWith c (.rxStartOther b) s = .next t ∧
        ByteKept c.rxCap b .awaitingStart .awaitingFrame s t)

/-- READFRAME in AwaitingFrame takes the first byte of the source and does what the row of the recognizer's
state and the byte's class does: the twelve transitions as one function (R164). That READFRAME is one byte
event is the model's choice, log entry 11. -/
def Obligations.ReadframeIsTheSelectedRow : Prop :=
  ∀ (s : State) (b : Byte) (rest : List Byte), s.seqState = .awaitingFrame → s.env.source = b :: rest →
    ∃ t, exec .readframe s = .next t ∧
      exec (decodeByte8 s.rxState b) { s with env := { s.env with source := rest } } = .next t ∧
      t.env.source = rest

/-- The model's choice, log entry 7: an instruction that the state does not enable (the spec gives it no
step there) leaves the state as it is, with no output: a row of the recognizer that is not selected,
READFRAME with an empty source or outside AwaitingFrame, CLASSIFY and DECODE of the received frame outside
Decoded. -/
def Obligations.NotEnabledChangesNothing : Prop :=
  ∀ (c : Config) (s : State),
    (s.seqState ≠ .awaitingFrame ∨ s.rxState ≠ .awaitingStart →
      ∀ i, (i ∈ [Instr.rxStartStx, .rxStartEtx, .rxStartCr] ∨ ∃ b, i = .rxStartOther b) →
        execWith c i s = .next (s.withOutput none)) ∧
    (s.seqState ≠ .awaitingFrame ∨ s.rxState ≠ .awaitingEnd →
      ∀ i, (i ∈ [Instr.rxEndStx, .rxEndEtx, .rxEndCr] ∨ ∃ b, i = .rxEndOther b) →
        execWith c i s = .next (s.withOutput none)) ∧
    (s.seqState ≠ .awaitingFrame ∨ s.rxState ≠ .awaitingTerminator →
      ∀ i, (i ∈ [Instr.rxTermStx, .rxTermEtx, .rxTermCr] ∨ ∃ b, i = .rxTermOther b) →
        execWith c i s = .next (s.withOutput none)) ∧
    (s.seqState ≠ .awaitingFrame ∨ s.env.source = [] →
      execWith c .readframe s = .next (s.withOutput none)) ∧
    (s.seqState ≠ .decoded → execWith c .classify s = .next (s.withOutput none) ∧
      execWith c (.decode .received) s = .next (s.withOutput none))

/-- R165, when the stream holds a frame: READFRAME takes exactly the bytes of the prefix
`P ++ [STX] ++ A ++ [ETX] ++ B ++ [CR]` from the source, completes at its last byte and not before, and
the raw frame is the prefix from its STX on, or the whole of it under `RX_KEEP_PREAMBLE`, cut to `RX_CAP`
bytes with `rx_ovf` set if longer. Nothing else changes. One READFRAME takes one byte: the model's choice,
log entry 11. -/
def Obligations.ReadframeDelivers : Prop :=
  ∀ (c : Config) (s : State) (P A B rest raw : List Byte),
    s.seqState = .awaitingFrame → s.rxState = .awaitingStart → s.rxLen = 0 → s.rxOvf = false →
    0x02 ∉ P → 0x03 ∉ A → 0x0D ∉ B →
    s.env.source = P ++ [0x02] ++ A ++ [0x03] ++ B ++ [0x0D] ++ rest →
    raw = (if c.rxKeepPreamble then P else []) ++ [0x02] ++ A ++ [0x03] ++ B ++ [0x0D] →
      (∀ n < P.length + A.length + B.length + 3, ∃ u,
        execRun c (List.replicate n .readframe) s = some u ∧ u.seqState = .awaitingFrame) ∧
      ∃ t, execRun c (List.replicate (P.length + A.length + B.length + 3) .readframe) s = some t ∧
        t = { s with
          rxBuf := t.rxBuf
          rxLen := min raw.length c.rxCap
          rxOvf := decide (c.rxCap < raw.length)
          seqState := .decoded
          env := { s.env with source := rest, output := none } } ∧
        ∀ i, Memory.read t.rxBuf i =
          if i < min raw.length c.rxCap then raw[i]? else Memory.read s.rxBuf i

/-- R165, the other half: when no prefix of the stream has that form READFRAME never completes, however
often it runs (one byte each time: the model's choice, log entry 11); and the prefix is unique. -/
def Obligations.ReadframeNeedsAFrame : Prop :=
  (∀ (c : Config) (s : State), s.seqState = .awaitingFrame → s.rxState = .awaitingStart →
    (∀ P A B rest : List Byte, 0x02 ∉ P → 0x03 ∉ A → 0x0D ∉ B →
      s.env.source ≠ P ++ [0x02] ++ A ++ [0x03] ++ B ++ [0x0D] ++ rest) →
    ∀ n, ∃ t, execRun c (List.replicate n .readframe) s = some t ∧ t.seqState = .awaitingFrame) ∧
  (∀ P A B rest P' A' B' rest' : List Byte,
    (0x02 : Byte) ∉ P → (0x03 : Byte) ∉ A → (0x0D : Byte) ∉ B →
    (0x02 : Byte) ∉ P' → (0x03 : Byte) ∉ A' → (0x0D : Byte) ∉ B' →
    P ++ [0x02] ++ A ++ [0x03] ++ B ++ [0x0D] ++ rest =
      P' ++ [0x02] ++ A' ++ [0x03] ++ B' ++ [0x0D] ++ rest' →
    P = P' ∧ A = A' ∧ B = B' ∧ rest = rest')

/-! ## CLASSIFY -/

/-- R272: when DECODE accepts the received frame and its code is the request's in lowercase, the exchange
ends in Success with the words; the registers not named keep their value (R270, R274). -/
def Obligations.ClassifySuccess : Prop :=
  ∀ (s : State) (f : List Byte) (k : Cmd) (ws : List Word), s.seqState = .decoded → HoldsFrame 32 s f →
    (decodeFrame Config.spec f s.rxOvf).result = .ok k ws → k ≠ ⟨0x68, 0x78, 0x78⟩ →
    k = lowerCmd s.lastCmd →
      ∃ r t, exec .classify s = .next t ∧ ExchangeEnded r s t ∧
        r = { s.res with
          kind := .success
          cmd := k
          nwords := ws.length
          words := ⟨ws.getD 0 0, ws.getD 1 0, ws.getD 2 0, ws.getD 3 0, ws.getD 4 0, ws.getD 5 0⟩
          expLen := f.length
          actLen := f.length
          chkCalc := hexPair (chk (slice f 0 (f.length - 3)))
          chkRecv := chkField f }

/-- R271: an "hxx" frame ends the exchange in DeviceError with its word as the raw code, whatever was
requested; the message index is the code in 1 to 7 and 0 for every other code (R249, R270). -/
def Obligations.ClassifyDeviceError : Prop :=
  ∀ (s : State) (f : List Byte) (e : Word), s.seqState = .decoded → HoldsFrame 32 s f →
    (decodeFrame Config.spec f s.rxOvf).result = .ok ⟨0x68, 0x78, 0x78⟩ [e] →
      ∃ r t, exec .classify s = .next t ∧ ExchangeEnded r s t ∧
        r = { s.res with
          kind := .deviceError
          cmd := ⟨0x68, 0x78, 0x78⟩
          errcode := e
          msg := if 1 ≤ e.toNat ∧ e.toNat ≤ 7 then e.toNat else 0
          nwords := 1
          words := { s.res.words with w0 := e }
          expLen := 12
          actLen := 12
          chkCalc := hexPair (chk (slice f 0 (f.length - 3)))
          chkRecv := chkField f }

/-- R273: when DECODE fails, the exchange ends in FrameError with its cause and its context, and no word is
delivered (R197, R270, R357). -/
def Obligations.ClassifyFrameError : Prop :=
  ∀ (s : State) (f : List Byte) (x : Cause), s.seqState = .decoded → HoldsFrame 32 s f →
    (decodeFrame Config.spec f s.rxOvf).result = .frameError x →
      ∃ r t, exec .classify s = .next t ∧ ExchangeEnded r s t ∧
        r = { s.res with
          kind := .frameError
          cause := x
          cmd := (decodeFrame Config.spec f s.rxOvf).cmd
          expLen := (decodeFrame Config.spec f s.rxOvf).expLen
          actLen := s.rxLen
          chkCalc := (decodeFrame Config.spec f s.rxOvf).chkCalc
          chkRecv := (decodeFrame Config.spec f s.rxOvf).chkRecv }

/-- A valid frame whose code is neither the sentinel nor the request's is a FrameError ECHO_MISMATCH with
its command and the context of a checked frame, as R341's table records cause 8, and no words; with
`ECHO_CHECK` false it is a Success with its own words. Every register not named keeps its value, which
EXCHANGE start made zero (R270, R272). -/
def Obligations.EchoComparison : Prop :=
  ∀ (c : Config) (s : State) (f : List Byte) (k : Cmd) (ws : List Word), s.seqState = .decoded →
    HoldsFrame c.rxCap s f → (decodeFrame c f s.rxOvf).result = .ok k ws →
    k ≠ ⟨0x68, 0x78, 0x78⟩ → k ≠ lowerCmd s.lastCmd →
      ∃ r t, execWith c .classify s = .next t ∧ ExchangeEnded r s t ∧
        (c.echoCheck = true → r = { s.res with
          kind := .frameError
          cause := .echoMismatch
          cmd := k
          expLen := f.length
          actLen := f.length
          chkCalc := hexPair (chk (slice f 0 (f.length - 3)))
          chkRecv := chkField f }) ∧
        (c.echoCheck = false → r = { s.res with
          kind := .success
          cmd := k
          nwords := ws.length
          words := ⟨ws.getD 0 0, ws.getD 1 0, ws.getD 2 0, ws.getD 3 0, ws.getD 4 0, ws.getD 5 0⟩
          expLen := f.length
          actLen := f.length
          chkCalc := hexPair (chk (slice f 0 (f.length - 3)))
          chkRecv := chkField f })

/-- R241 to R247: each of the seven frames gives DeviceError with its code and its message. -/
def Obligations.DeviceErrorFrames : Prop :=
  ∀ x ∈ [((1 : Nat), (0x31 : Byte), (0x31 : Byte), (0x45 : Byte), "UART Communication Error"),
      (2, 0x32, 0x31, 0x46, "Timeout Error"), (3, 0x33, 0x32, 0x30, "Syntax Error"),
      (4, 0x34, 0x32, 0x31, "Checksum Error"), (5, 0x35, 0x32, 0x32, "Command Error"),
      (6, 0x36, 0x32, 0x33, "Parameter Error"), (7, 0x37, 0x32, 0x34, "Parameter Size Error")],
    ∀ s : State, s.seqState = .decoded → s.rxOvf = false →
      HoldsFrame 32 s
        [0x02, 0x68, 0x78, 0x78, 0x30, 0x30, 0x30, x.2.1, 0x03, x.2.2.1, x.2.2.2.1, 0x0D] →
      ∃ t, exec .classify s = .next t ∧ t.res.kind = .deviceError ∧ t.res.errcode.toNat = x.1 ∧
        t.res.msg = x.1 ∧ errMsg Config.spec t.res.errcode = some x.2.2.2.2

/-! ## DEADLINE and RESET -/

/-- R277: `Deadline` in Sent or AwaitingFrame ends the exchange in Timeout with the number of bytes kept so
far; in Idle and Decoded it changes nothing and has no output. -/
def Obligations.DeadlineStep : Prop :=
  (∀ s : State, s.seqState = .sent ∨ s.seqState = .awaitingFrame →
    exec .deadline s = .next { s with
      res := { s.res with kind := .timeout, cause := .none, actLen := s.rxLen }
      rxLen := 0
      rxOvf := false
      rxState := .awaitingStart
      txLen := 0
      txIdx := 0
      resValid := true
      seqState := .idle
      env := { s.env with output := some .done } }) ∧
  (∀ s : State, s.seqState = .idle ∨ s.seqState = .decoded → exec .deadline s = .next (s.withOutput none))

/-- R43, R279: RESET in any state puts every element at its reset value, gives no output, and leaves the
byte source, the byte sink and what is presented as they are; the state at power-on has the same values. -/
def Obligations.ResetStep : Prop :=
  ∀ s : State, ∃ t, exec .reset s = .next t ∧ t.env = { s.env with output := none } ∧
    ∀ u ∈ [t, State.reset],
      u.seqState = .idle ∧ u.rxState = .awaitingStart ∧ u.rxLen = 0 ∧ u.rxOvf = false ∧ u.txLen = 0 ∧
      u.txIdx = 0 ∧ u.lastCmd = ⟨0x00, 0x00, 0x00⟩ ∧ u.resValid = false ∧ u.res.kind = .none ∧
      u.res.cause = .none ∧ u.res.cmd = ⟨0x00, 0x00, 0x00⟩ ∧ u.res.nwords = 0 ∧
      u.res.words = ⟨0, 0, 0, 0, 0, 0⟩ ∧ u.res.errcode = 0 ∧ u.res.msg = 0 ∧ u.res.expLen = 0 ∧
      u.res.actLen = 0 ∧ u.res.chkCalc = ⟨0x00, 0x00⟩ ∧ u.res.chkRecv = ⟨0x00, 0x00⟩

/-! ## Hex digits and error codes -/

/-- Each hex digit completes with its value, and whether the block itself produces that character: it never
produces a lowercase one (R99, R100); a character that is no hex digit has no value. No state changes but
the value returned (log entry 9). -/
def Obligations.HexDigitsComplete : Prop :=
  ∀ s : State,
    (∀ x ∈ [(Instr.hex0, 0), (.hex1, 1), (.hex2, 2), (.hex3, 3), (.hex4, 4), (.hex5, 5), (.hex6, 6),
        (.hex7, 7), (.hex8, 8), (.hex9, 9), (.hexA, 10), (.hexB, 11), (.hexC, 12), (.hexD, 13),
        (.hexE, 14), (.hexF, 15)],
      exec x.1 s = .next (s.withOutput (some (.returned (.digit (some x.2) true))))) ∧
    (∀ x ∈ [(Instr.hexLowA, 10), (.hexLowB, 11), (.hexLowC, 12), (.hexLowD, 13), (.hexLowE, 14),
        (.hexLowF, 15)],
      exec x.1 s = .next (s.withOutput (some (.returned (.digit (some x.2) false)))) ∧
      ∀ c : Config, c.rxHexAcceptLower = false →
        execWith c x.1 s = .next (s.withOutput (some (.returned (.digit none false))))) ∧
    (∀ b : Byte, hexVal Config.spec b = none →
      exec (.hexNone b) s = .next (s.withOutput (some (.returned (.digit none false)))))

/-- Each error code completes with the raw code, the message index and the message; every code outside 1 to
7 has index 0 and no message (R240 to R250). No state changes but the value returned (log entry 9). -/
def Obligations.ErrorCodesComplete : Prop :=
  ∀ s : State,
    (∀ x ∈ [(Instr.err1, 1, "UART Communication Error"), (.err2, 2, "Timeout Error"),
        (.err3, 3, "Syntax Error"), (.err4, 4, "Checksum Error"), (.err5, 5, "Command Error"),
        (.err6, 6, "Parameter Error"), (.err7, 7, "Parameter Size Error")],
      exec x.1 s =
        .next (s.withOutput (some (.returned (.deviceError (BitVec.ofNat 16 x.2.1) x.2.1 (some x.2.2)))))) ∧
    (∀ e : Word, e.toNat = 0 ∨ 8 ≤ e.toNat →
      exec (.errUnmapped e) s = .next (s.withOutput (some (.returned (.deviceError e 0 none)))))

/-! ## The step -/

/-- A step runs the decoded instruction: when the environment has moved and the event chosen decodes to an
instruction, the step is that instruction's meaning on the state with the event taken; with no event the
block waits (R11, R20; log entries 6 and 7). -/
def Obligations.StepRunsTheDecodedInstruction : Prop :=
  (∀ (s : State) (x : Code) (i : Instr), selectEvent s.arrive = some x → decode x = .ok i →
    step s = exec i (s.arrive.take x)) ∧
  (∀ s : State, selectEvent s.arrive = none → step s = .next (s.arrive.withOutput none))

/-- R356: of the events presented the block takes one: `Reset`, then `Deadline`, then the enabled one of
`Rx`, `TxReady` and `Tau`, then the oldest `Req`; what lost is still presented (log entry 6). -/
def Obligations.EventPriority : Prop :=
  ∀ s a : State, a = s.arrive →
    (a.env.resetStrobe = true →
      step s = exec .reset { a with env := { a.env with resetStrobe := false } }) ∧
    (a.env.resetStrobe = false → a.env.deadlineStrobe = true →
      step s = exec .deadline { a with env := { a.env with deadlineStrobe := false } }) ∧
    (a.env.resetStrobe = false → a.env.deadlineStrobe = false →
      (a.seqState = .sent → a.env.txReady = true →
        step s = exec .send { a with env := { a.env with txReady := false } }) ∧
      (∀ b rest, a.seqState = .awaitingFrame → a.env.source = b :: rest →
        step s = exec (decodeByte8 a.rxState b) { a with env := { a.env with source := rest } }) ∧
      (a.seqState = .decoded → step s = exec .classify a) ∧
      (∀ q rest, a.env.reqs = q :: rest →
        (a.seqState = .idle ∨ (a.seqState = .sent ∧ a.env.txReady = false) ∨
          (a.seqState = .awaitingFrame ∧ a.env.source = [])) →
        step s = exec (.exchange q.cmd q.payload) { a with env := { a.env with reqs := rest } }))

/-- R42, at reset: the invariant holds of the reset state, under any parameters. -/
def Obligations.ResetStateIsInvariant : Prop := ∀ c : Config, Inv c State.reset

/-- R42: every step keeps the invariant, of the machine and of the block under any well-formed
configuration. -/
def Obligations.StepKeepsInvariant : Prop :=
  (∀ s t : State, Inv Config.spec s → step s = .next t → Inv Config.spec t) ∧
  (∀ (c : Config) (s t : State), c.wf = true → Inv c s → stepWith c s = .next t → Inv c t)

/-- In a state with the invariant no step stops: every event has its effect or is refused as the rules say,
and no access to a buffer is out of range or reads a byte that nothing has written (R11, R24, R27, R281). -/
def Obligations.NoStepStops : Prop :=
  (∀ s : State, Inv Config.spec s → ∃ t, step s = .next t) ∧
  (∀ (c : Config) (s : State), Inv c s → stepCompletes c s)

/-- The block takes a byte from the source only in AwaitingFrame, and then the first one; only the
environment's move puts bytes into it or empties it (R41, R73, R150). -/
def Obligations.SourceTakenOnlyInAwaitingFrame : Prop :=
  ∀ (c : Config) (s t : State), stepWith c s = .next t →
    t.env.source = s.arrive.env.source ∨
    (s.seqState = .awaitingFrame ∧ ∃ b, s.arrive.env.source = b :: t.env.source)

/-- A byte goes to the sink only in Sent, one in a step, the one at `tx_idx`, and it is the step's output;
no step takes a byte back (R69, R73, R137). -/
def Obligations.SinkWrittenOnlyInSent : Prop :=
  ∀ (c : Config) (s t : State), stepWith c s = .next t →
    (t.env.sink = s.env.sink ∧ ∀ b, t.env.output ≠ some (.tx b)) ∨
    (s.seqState = .sent ∧ ∃ b, Memory.read s.txBuf s.txIdx = some b ∧ t.txIdx = s.txIdx + 1 ∧
      t.env.sink = s.env.sink ++ [b] ∧ t.env.output = some (.tx b))

/-- The sequencer moves only along the protocol's states: Idle to Sent to AwaitingFrame to Decoded, and from
each of these back to Idle (R21, R260, R280). -/
def Obligations.SequencerMoves : Prop :=
  ∀ (c : Config) (s t : State), stepWith c s = .next t →
    t.seqState = s.seqState ∨ t.seqState = .idle ∨
    (s.seqState = .idle ∧ t.seqState = .sent) ∨
    (s.seqState = .sent ∧ t.seqState = .awaitingFrame) ∨
    (s.seqState = .awaitingFrame ∧ t.seqState = .decoded)

/-- The result registers change only where an exchange ends, with `Done`, and are cleared only where one
starts or by `Reset` (R70, R274). -/
def Obligations.ResultChangesOnlyAtTheEnd : Prop :=
  ∀ (c : Config) (s t : State), stepWith c s = .next t →
    (t.res = s.res ∧ t.resValid = s.resValid ∧ t.env.output ≠ some .done) ∨
    (s.seqState ≠ .idle ∧ t.seqState = .idle ∧ t.env.output = some .done) ∨
    (t.res = Result.zero ∧ t.resValid = false ∧
      ((s.seqState = .idle ∧ t.seqState = .sent) ∨ s.arrive.env.resetStrobe = true))

/-- At `Done` the block is Idle with the frame state cleared, `res_valid` set and an outcome in `res_kind`
(R282, R357). -/
def Obligations.DoneMeansAnOutcome : Prop :=
  ∀ (c : Config) (s t : State), Inv c s → stepWith c s = .next t → t.env.output = some .done →
    s.seqState ≠ .idle ∧ t.seqState = .idle ∧ t.resValid = true ∧ t.res.kind ≠ .none ∧ t.rxLen = 0 ∧
    t.rxOvf = false ∧ t.rxState = .awaitingStart ∧ t.txLen = 0 ∧ t.txIdx = 0

/-- R275: no retry and no resynchronisation: from Idle the block does nothing by itself. A step that leaves
Idle takes a request that the host presented; any other leaves the sink, the source and the sequencer as
they are. -/
def Obligations.NothingHappensWithoutARequest : Prop :=
  ∀ (c : Config) (s t : State), s.seqState = .idle → stepWith c s = .next t →
    t.env.source = s.arrive.env.source ∧ t.env.sink = s.env.sink ∧ t.env.output ≠ some .done ∧
    (t.seqState = .idle ∨
      (t.seqState = .sent ∧ ∃ q, s.arrive.env.reqs = q :: t.env.reqs ∧ t.lastCmd = upperCmd q.cmd))

/-- R37, R44: in a state with the invariant the host reads every item of `STATUS` and of `RESULT` without
loss: the states, the kind and the cause as the numeric codes of R21, R22, R30 and R31 and never as one of the
encodings that are not written, the counters at widths that hold them (6 bits for `RX_CAP` = 32), every other
register as it is. The receive buffer is not readable: outside Decoded, where CLASSIFY reads it, nothing but
RXBUF itself depends on what RXBUF holds (R37, R70, R71). -/
def Obligations.HostViewIsExact : Prop :=
  (∀ (c : Config) (s : State), Inv c s →
    ((readStatus s).rxOvf = s.rxOvf ∧ (readStatus s).resValid = s.resValid ∧
      (∀ x ∈ [(SeqState.idle, 0), (.sent, 1), (.awaitingFrame, 2), (.decoded, 3)],
        (readStatus s).seqState.toNat = x.2 ↔ s.seqState = x.1) ∧
      (∀ x ∈ [(RxState.awaitingStart, 0), (.awaitingEnd, 1), (.awaitingTerminator, 2)],
        (readStatus s).rxState.toNat = x.2 ↔ s.rxState = x.1) ∧
      (readStatus s).rxState ≠ 3) ∧
    ((∀ x ∈ [(ResKind.none, 0), (.success, 1), (.deviceError, 2), (.frameError, 3), (.timeout, 4)],
        (readResult s c).resKind.toNat = x.2 ↔ s.res.kind = x.1) ∧
      (readResult s c).resKind.toNat ≤ 4) ∧
    ((∀ x ∈ [(Cause.none, 0), (.overflow, 1), (.tooShort, 2), (.badStart, 3), (.badTerminator, 4),
          (.badEtx, 5), (.unknownCommand, 6), (.lengthMismatch, 7), (.checksumMismatch, 8),
          (.badHexDigit, 9), (.echoMismatch, 10)],
        (readResult s c).resCause.toNat = x.2 ↔ s.res.cause = x.1) ∧
      (readResult s c).resCause.toNat ≤ 10) ∧
    (readResult s c).resNwords.toNat = s.res.nwords ∧ (readResult s c).resMsg.toNat = s.res.msg ∧
    (readResult s c).resExpLen.toNat = s.res.expLen ∧ (readResult s c).resActLen.toNat = s.res.actLen ∧
    (readResult s c).resCmd = s.res.cmd ∧ (readResult s c).resWords = s.res.words ∧
    (readResult s c).resErrcode = s.res.errcode ∧ (readResult s c).resChkCalc = s.res.chkCalc ∧
    (readResult s c).resChkRecv = s.res.chkRecv) ∧
  lengthWidth Config.spec = 6 ∧
  (∀ (c : Config) (s t : State) (m : Memory), s.seqState ≠ .decoded → stepWith c s = .next t →
    ∃ m', stepWith c { s with rxBuf := m } = .next { t with rxBuf := m' })

/-! ## Whole exchanges -/

/-- A whole exchange that goes well delivers the words: for every command of the catalog but the sentinel, a
request of it in any spelling and with any payload that fits, answered by the frame of that command with
the catalog's number of words, ends in Success with exactly those words; the sink has got the request, and
the source is left where the response ended (R260, R283). One READFRAME takes one byte: the model's choice,
log entry 11. -/
def Obligations.WholeExchangeDeliversTheWords : Prop :=
  ∀ (c : Config) (r : CatalogRow) (k : Cmd) (p : Payload) (ws : List Word) (rest : List Byte) (s : State),
    c.wf = true → r ∈ c.catalog → r.code ≠ ⟨0x68, 0x78, 0x78⟩ → lowerCmd k = r.code →
    (dataBytes p).length ≤ c.txMaxData → ws.length = r.size / 4 → s.seqState = .idle →
    s.env.source = frameBytes r.code (ws.flatMap hexWord) ++ rest →
      ∃ t, execRun c ([.exchange k p] ++ List.replicate (8 + (dataBytes p).length) .send ++
          List.replicate (8 + r.size) .readframe ++ [.classify]) s = some t ∧
        t.seqState = .idle ∧ t.resValid = true ∧ t.env.output = some .done ∧
        t.env.sink = s.env.sink ++ frameBytes (upperCmd k) (dataBytes p) ∧ t.env.source = rest ∧
        t.res = { Result.zero with
          kind := .success
          cmd := r.code
          nwords := ws.length
          words := ⟨ws.getD 0 0, ws.getD 1 0, ws.getD 2 0, ws.getD 3 0, ws.getD 4 0, ws.getD 5 0⟩
          expLen := 8 + r.size
          actLen := 8 + r.size
          chkCalc := hexPair (chk (frameBody r.code (ws.flatMap hexWord)))
          chkRecv := hexPair (chk (frameBody r.code (ws.flatMap hexWord))) }

/-! ## The host side (outside the block) -/

/-- R301 to R303, R307, host side: the conversions with the source's literals; and under any factors that
have inverses the raw word of the physical value of a raw word is that word, for voltage, current and
temperature, whatever `ROUND` does elsewhere. -/
def Obligations.UnitConversionRoundTrip : Prop :=
  (∀ c : Config, FactorsInvertible c.factors → UnitRoundTrip c) ∧
  FactorsInvertible Config.spec.factors ∧
  (∀ raw : Word, toVoltage Config.spec.factors raw = raw.toNat * (1812 / 1000000) ∧
    toCurrent Config.spec.factors raw = raw.toNat * (498 / 100000) ∧
    toTemperature Config.spec.factors raw =
      (raw.toNat * (1907 / 100000000) - 1035 / 1000) / (-55 / 10000))

/-- R310, R311, host side: getStatus sends HGS with an empty payload, and of the word of its answer each flag
is its own bit, the first two true when set and the others when clear; the flags depend on no other bit. -/
def Obligations.StatusFlagsRead : Prop :=
  StatusDecomposition ∧
  (∀ v w : Word, v &&& 0x005F = w &&& 0x005F → decodeStatus v = decodeStatus w) ∧
  decodeStatus 0x0001 = ⟨true, false, true, true, true, true⟩ ∧
  decodeStatus 0x0000 = ⟨false, false, true, true, true, true⟩ ∧
  decodeStatus 0x005D = ⟨true, false, false, false, false, false⟩ ∧
  (∀ c : Config, hostBegin c .getStatus = .issue ⟨⟨0x48, 0x47, 0x53⟩, .raw []⟩ (.last .getStatus)) ∧
  (∀ (c : Config) (r : Result), r.kind = .success → r.cmd = ⟨0x68, 0x67, 0x73⟩ → r.nwords = 1 →
    hostResume c (.last .getStatus) r = .finish (.status (decodeStatus r.words.w0)))

/-- R318, R320 to R322, host side: a power setter sends the code that changes its own field and keeps the
other as it was read; when the word read is none of 0 to 3 it fails and sends nothing more. That the set code
has the encoding of the status read back is R319's assumption (D36), the model's choice of log entry 15. -/
def Obligations.PowerSettersPreserveTheOtherField : Prop :=
  ∀ c : Config, AmbiguousPrerequisiteFails c ∧
    ∀ (ws : ResWords) (on : Bool), ws.w0.toNat < 4 →
      (∃ code, hostContinue c (.query (.setOverCurrentProtection on)) ws =
          .issue ⟨⟨0x48, 0x53, 0x43⟩, .word code⟩ (.last (.setOverCurrentProtection on)) ∧
        decodePower code =
          (if on then .automaticRestoration else .notInUse, (decodePower ws.w0).2)) ∧
      (∃ code, hostContinue c (.query (.setOutputVoltageControlFunction on)) ws =
          .issue ⟨⟨0x48, 0x53, 0x43⟩, .word code⟩ (.last (.setOutputVoltageControlFunction on)) ∧
        decodePower code =
          ((decodePower ws.w0).1, if on then .effectiveness else .invalid))

/-- R309, R314, R316, host side: a parameter out of range fails before any I/O, so that no request is
issued, and one in range does not; the bounds are inclusive, and with the source's literals they are the
figures of R314 and R316. What the query of Vb sends is free (log entry 5). -/
def Obligations.ValidationBeforeIO : Prop :=
  ∀ c : Config, ValidatesBeforeIO c ∧
    (∀ v : ℚ, 0 ≤ v → v ≤ 65535 * c.factors.voltage → ∃ w,
      hostBegin c (.setReferenceVoltage v) =
        .issue ⟨⟨0x48, 0x42, 0x56⟩, .word w⟩ (.last (.setReferenceVoltage v))) ∧
    (c.factors = ConversionFactor.source → c.bounds = CorrectionBounds.source →
      65535 * c.factors.voltage = 11874942 / 100000 ∧
      (∀ a b x y tb : ℚ, 1507 / 1000 ≤ a ∧ a ≤ 97255752 / 1000000 ∧ 1507 / 1000 ≤ b ∧
          b ≤ 97255752 / 1000000 ∧ 0 ≤ x ∧ x ≤ 21396375 / 100000 ∧ 0 ≤ y ∧ y ≤ 21396375 / 100000 ∧
          -(21475245 / 550000) ≤ tb ∧ tb ≤ 2070 / 11 →
        hostBegin c (.setTemperatureCorrectionFactor a b x y tb) =
          .issue ⟨c.vbQuery.cmd, .raw c.vbQuery.payload⟩
            (.query (.setTemperatureCorrectionFactor a b x y tb))) ∧
      (∀ a b x y tb : ℚ, a < 1507 / 1000 ∨ b < 1507 / 1000 ∨ 97255752 / 1000000 < a ∨
          97255752 / 1000000 < b ∨ x < 0 ∨ y < 0 ∨ 21396375 / 100000 < x ∨ 21396375 / 100000 < y ∨
          tb < -(21475245 / 550000) ∨ 2070 / 11 < tb →
        hostBegin c (.setTemperatureCorrectionFactor a b x y tb) = .fail .validation))
end

