-- ==== Sys2Proof/Laws/Memory.lean ====
section
/-! SUPPORT. The laws of the frame buffers: what a read gives after a write, and that every operation
keeps the canonical form. -/

namespace Sys2Proof.Machine

/-- A read after a write at the same index gives the byte written. -/
@[simp] theorem Memory.read_write_same (m : Memory) (i : Nat) (v : Byte) :
    Memory.read (Memory.write m i v) i = some v := by
  induction m with
  | nil => simp [Memory.write, Memory.read]
  | cons x m ih =>
    obtain ⟨a, b⟩ := x
    simp only [Memory.write]
    split
    · simp [Memory.read]
    · split
      · simp [Memory.read]
      · rename_i h1 h2
        simp [Memory.read, Ne.symm h2, ih]

/-- A write leaves every other index alone. -/
theorem Memory.read_write_other (m : Memory) {i j : Nat} (v : Byte) (h : j ≠ i) :
    Memory.read (Memory.write m i v) j = Memory.read m j := by
  induction m with
  | nil => simp [Memory.write, Memory.read, Ne.symm h]
  | cons x m ih =>
    obtain ⟨a, b⟩ := x
    simp only [Memory.write]
    split
    · simp [Memory.read, Ne.symm h]
    · split
      · rename_i h1 h2
        subst h2
        simp [Memory.read, Ne.symm h]
      · simp only [Memory.read, ih]

/-- An index listed after a write is the one written or one listed before. -/
theorem Memory.mem_write {m : Memory} {i : Nat} {v : Byte} {x : Host.Cell}
    (h : x ∈ Memory.write m i v) : x.1 = i ∨ x ∈ m := by
  induction m with
  | nil => simp [Memory.write] at h; simp [h]
  | cons y m ih =>
    obtain ⟨a, b⟩ := y
    simp only [Memory.write] at h
    split at h
    · rcases List.mem_cons.mp h with rfl | h
      · exact .inl rfl
      · exact .inr h
    · split at h
      · rcases List.mem_cons.mp h with rfl | h
        · exact .inl rfl
        · exact .inr (List.mem_cons_of_mem _ h)
      · rcases List.mem_cons.mp h with rfl | h
        · exact .inr List.mem_cons_self
        · exact (ih h).imp id (List.mem_cons_of_mem _)

/-- A write keeps the canonical form. -/
theorem Memory.write_wf {m : Memory} (i : Nat) (v : Byte) (h : m.wf) : (Memory.write m i v).wf := by
  induction m with
  | nil => simp [Memory.write]
  | cons y m ih =>
    obtain ⟨a, b⟩ := y
    obtain ⟨h1, h2⟩ := List.pairwise_cons.mp h
    simp only [Memory.write]
    split
    · rename_i hlt
      refine List.pairwise_cons.mpr ⟨fun x hx => ?_, h⟩
      rcases List.mem_cons.mp hx with rfl | hx
      · exact hlt
      · exact hlt.trans (h1 x hx)
    · split
      · rename_i heq
        subst heq
        exact List.pairwise_cons.mpr ⟨h1, h2⟩
      · rename_i hge hne
        refine List.pairwise_cons.mpr ⟨fun x hx => ?_, ih h2⟩
        rcases Memory.mem_write hx with hx | hx
        · have : a < i := by omega
          simpa [hx] using this
        · exact h1 x hx

/-- Writing a sequence keeps the canonical form. -/
theorem Memory.writeRange_wf {m : Memory} (a : Nat) (bs : List Byte) (h : m.wf) :
    (Memory.writeRange m a bs).wf := by
  induction bs generalizing m a with
  | nil => exact h
  | cons b bs ih => exact ih (a + 1) (Memory.write_wf a b h)

/-- An index below the sequence written reads as before. -/
theorem Memory.read_writeRange_below (m : Memory) {a i : Nat} (bs : List Byte) (h : i < a) :
    Memory.read (Memory.writeRange m a bs) i = Memory.read m i := by
  induction bs generalizing m a with
  | nil => rfl
  | cons b bs ih =>
    rw [Memory.writeRange, ih (Memory.write m a b) (by omega),
      Memory.read_write_other m b (by omega)]

/-- What is read after a sequence has been written: its bytes where it stands, the old bytes elsewhere. -/
theorem Memory.read_writeRange (m : Memory) (a i : Nat) (bs : List Byte) :
    Memory.read (Memory.writeRange m a bs) i
      = if a ≤ i ∧ i < a + bs.length then bs[i - a]? else Memory.read m i := by
  induction bs generalizing m a with
  | nil =>
    have : ¬(a ≤ i ∧ i < a + 0) := by omega
    simp [Memory.writeRange]
  | cons b bs ih =>
    rw [Memory.writeRange, ih]
    rcases Nat.lt_trichotomy i a with h | h | h
    · have h1 : ¬(a + 1 ≤ i ∧ i < a + 1 + bs.length) := by omega
      have h2 : ¬(a ≤ i ∧ i < a + (b :: bs).length) := by omega
      rw [if_neg h1, if_neg h2, Memory.read_write_other m b (by omega)]
    · subst h
      have h1 : ¬(i + 1 ≤ i ∧ i < i + 1 + bs.length) := by omega
      have h2 : i ≤ i ∧ i < i + (b :: bs).length := by simp
      rw [if_neg h1, if_pos h2]
      simp
    · by_cases hl : i < a + 1 + bs.length
      · have h1 : a + 1 ≤ i ∧ i < a + 1 + bs.length := ⟨h, hl⟩
        have h2 : a ≤ i ∧ i < a + (b :: bs).length := by simp; omega
        rw [if_pos h1, if_pos h2]
        have h3 : i - a = (i - (a + 1)) + 1 := by omega
        rw [h3, List.getElem?_cons_succ]
      · have h1 : ¬(a + 1 ≤ i ∧ i < a + 1 + bs.length) := by omega
        have h2 : ¬(a ≤ i ∧ i < a + (b :: bs).length) := by simp; omega
        rw [if_neg h1, if_neg h2, Memory.read_write_other m b (by omega)]

/-- What a sequence read holds: as many bytes as asked for, each the byte at its index. -/
theorem Memory.readRange_eq_some {m : Memory} {a n : Nat} {bs : List Byte} :
    Memory.readRange m a n = some bs
      ↔ bs.length = n ∧ ∀ i < n, Memory.read m (a + i) = bs[i]? := by
  induction n generalizing a bs with
  | zero =>
    simp only [Memory.readRange, Option.some.injEq]
    constructor
    · rintro rfl
      exact ⟨rfl, fun i hi => absurd hi (Nat.not_lt_zero i)⟩
    · rintro ⟨h, -⟩
      exact (List.length_eq_zero_iff.mp h).symm
  | succ n ih =>
    simp only [Memory.readRange]
    constructor
    · intro h
      split at h
      · rename_i b bs' hb hbs
        cases h
        obtain ⟨hl, hr⟩ := ih.mp hbs
        refine ⟨by simp [hl], fun i hi => ?_⟩
        cases i with
        | zero => simpa using hb
        | succ i =>
          have := hr i (by omega)
          rw [List.getElem?_cons_succ, ← this]
          congr 1
          omega
      · cases h
    · rintro ⟨hl, hr⟩
      cases bs with
      | nil => simp at hl
      | cons b bs =>
        have hb : Memory.read m a = some b := by simpa using hr 0 (by omega)
        have hbs : Memory.readRange m (a + 1) n = some bs := by
          refine ih.mpr ⟨by simpa using hl, fun i hi => ?_⟩
          have := hr (i + 1) (by omega)
          rw [List.getElem?_cons_succ] at this
          rw [← this]
          congr 1
          omega
        simp [hb, hbs]

/-- A sequence can be read when each of its bytes has been written. -/
theorem Memory.readRange_isSome {m : Memory} {a n : Nat}
    (h : ∀ i < n, (Memory.read m (a + i)).isSome) : ∃ bs, Memory.readRange m a n = some bs := by
  induction n generalizing a with
  | zero => exact ⟨[], rfl⟩
  | succ n ih =>
    obtain ⟨b, hb⟩ := Option.isSome_iff_exists.mp (h 0 (by omega))
    obtain ⟨bs, hbs⟩ := ih (a := a + 1) (fun i hi => by
      have := h (i + 1) (by omega)
      rwa [show a + 1 + i = a + (i + 1) by omega])
    exact ⟨b :: bs, by simp only [Nat.add_zero] at hb; simp [Memory.readRange, hb, hbs]⟩

/-- `MemRead` answers a sequence exactly when it lies in the buffer and every byte has been written
(R11). -/
theorem memRead_eq_ok {cap a n : Nat} {m : Memory} {bs : List Byte} :
    memRead cap m a n = .ok bs ↔ a + n ≤ cap ∧ Memory.readRange m a n = some bs := by
  unfold memRead
  split
  · split <;> simp_all
  · simp_all

/-- `MemWrite` answers exactly when the bytes lie in the buffer (R11). -/
theorem memWrite_eq_ok {cap a : Nat} {m m' : Memory} {bs : List Byte} :
    memWrite cap m a bs = .ok m' ↔ a + bs.length ≤ cap ∧ m' = Memory.writeRange m a bs := by
  unfold memWrite
  split
  · simp_all [eq_comm]
  · simp_all

end Sys2Proof.Machine
end

