-- ==== Sys2Proof/Laws/State.lean ====
section
/-! SUPPORT. One lemma for each field of each named update of the state, true by unfolding, so that no
later proof unfolds a record update. -/

namespace Sys2Proof.Machine

/-! ## `State.withOutput` -/

@[simp] theorem State.withOutput_seqState (s : State) (o : Option Output) :
    (s.withOutput o).seqState = s.seqState := rfl
@[simp] theorem State.withOutput_rxState (s : State) (o : Option Output) :
    (s.withOutput o).rxState = s.rxState := rfl
@[simp] theorem State.withOutput_rxBuf (s : State) (o : Option Output) :
    (s.withOutput o).rxBuf = s.rxBuf := rfl
@[simp] theorem State.withOutput_rxLen (s : State) (o : Option Output) :
    (s.withOutput o).rxLen = s.rxLen := rfl
@[simp] theorem State.withOutput_rxOvf (s : State) (o : Option Output) :
    (s.withOutput o).rxOvf = s.rxOvf := rfl
@[simp] theorem State.withOutput_txBuf (s : State) (o : Option Output) :
    (s.withOutput o).txBuf = s.txBuf := rfl
@[simp] theorem State.withOutput_txLen (s : State) (o : Option Output) :
    (s.withOutput o).txLen = s.txLen := rfl
@[simp] theorem State.withOutput_txIdx (s : State) (o : Option Output) :
    (s.withOutput o).txIdx = s.txIdx := rfl
@[simp] theorem State.withOutput_lastCmd (s : State) (o : Option Output) :
    (s.withOutput o).lastCmd = s.lastCmd := rfl
@[simp] theorem State.withOutput_resValid (s : State) (o : Option Output) :
    (s.withOutput o).resValid = s.resValid := rfl
@[simp] theorem State.withOutput_res (s : State) (o : Option Output) :
    (s.withOutput o).res = s.res := rfl
@[simp] theorem State.withOutput_env_source (s : State) (o : Option Output) :
    (s.withOutput o).env.source = s.env.source := rfl
@[simp] theorem State.withOutput_env_sink (s : State) (o : Option Output) :
    (s.withOutput o).env.sink = s.env.sink := rfl
@[simp] theorem State.withOutput_env_resetStrobe (s : State) (o : Option Output) :
    (s.withOutput o).env.resetStrobe = s.env.resetStrobe := rfl
@[simp] theorem State.withOutput_env_deadlineStrobe (s : State) (o : Option Output) :
    (s.withOutput o).env.deadlineStrobe = s.env.deadlineStrobe := rfl
@[simp] theorem State.withOutput_env_txReady (s : State) (o : Option Output) :
    (s.withOutput o).env.txReady = s.env.txReady := rfl
@[simp] theorem State.withOutput_env_reqs (s : State) (o : Option Output) :
    (s.withOutput o).env.reqs = s.env.reqs := rfl
@[simp] theorem State.withOutput_env_probe (s : State) (o : Option Output) :
    (s.withOutput o).env.probe = s.env.probe := rfl
@[simp] theorem State.withOutput_env_script (s : State) (o : Option Output) :
    (s.withOutput o).env.script = s.env.script := rfl
@[simp] theorem State.withOutput_env_output (s : State) (o : Option Output) :
    (s.withOutput o).env.output = o := rfl
@[simp] theorem State.withOutput_withOutput (s : State) (o p : Option Output) :
    (s.withOutput o).withOutput p = s.withOutput p := rfl

/-! ## `State.arrive` and `State.take`: only the environment changes -/

@[simp] theorem State.arrive_seqState (s : State) : s.arrive.seqState = s.seqState := rfl
@[simp] theorem State.arrive_rxState (s : State) : s.arrive.rxState = s.rxState := rfl
@[simp] theorem State.arrive_rxBuf (s : State) : s.arrive.rxBuf = s.rxBuf := rfl
@[simp] theorem State.arrive_rxLen (s : State) : s.arrive.rxLen = s.rxLen := rfl
@[simp] theorem State.arrive_rxOvf (s : State) : s.arrive.rxOvf = s.rxOvf := rfl
@[simp] theorem State.arrive_txBuf (s : State) : s.arrive.txBuf = s.txBuf := rfl
@[simp] theorem State.arrive_txLen (s : State) : s.arrive.txLen = s.txLen := rfl
@[simp] theorem State.arrive_txIdx (s : State) : s.arrive.txIdx = s.txIdx := rfl
@[simp] theorem State.arrive_lastCmd (s : State) : s.arrive.lastCmd = s.lastCmd := rfl
@[simp] theorem State.arrive_resValid (s : State) : s.arrive.resValid = s.resValid := rfl
@[simp] theorem State.arrive_res (s : State) : s.arrive.res = s.res := rfl
@[simp] theorem State.arrive_env (s : State) : s.arrive.env = s.env.arrive := rfl
@[simp] theorem State.take_seqState (s : State) (x : Code) : (s.take x).seqState = s.seqState := rfl
@[simp] theorem State.take_rxState (s : State) (x : Code) : (s.take x).rxState = s.rxState := rfl
@[simp] theorem State.take_rxBuf (s : State) (x : Code) : (s.take x).rxBuf = s.rxBuf := rfl
@[simp] theorem State.take_rxLen (s : State) (x : Code) : (s.take x).rxLen = s.rxLen := rfl
@[simp] theorem State.take_rxOvf (s : State) (x : Code) : (s.take x).rxOvf = s.rxOvf := rfl
@[simp] theorem State.take_txBuf (s : State) (x : Code) : (s.take x).txBuf = s.txBuf := rfl
@[simp] theorem State.take_txLen (s : State) (x : Code) : (s.take x).txLen = s.txLen := rfl
@[simp] theorem State.take_txIdx (s : State) (x : Code) : (s.take x).txIdx = s.txIdx := rfl
@[simp] theorem State.take_lastCmd (s : State) (x : Code) : (s.take x).lastCmd = s.lastCmd := rfl
@[simp] theorem State.take_resValid (s : State) (x : Code) : (s.take x).resValid = s.resValid := rfl
@[simp] theorem State.take_res (s : State) (x : Code) : (s.take x).res = s.res := rfl
@[simp] theorem State.take_env (s : State) (x : Code) : (s.take x).env = s.env.take x := rfl

/-- Taking an event never changes the sink. -/
@[simp] theorem Env.take_sink (e : Env) (x : Code) : (e.take x).sink = e.sink := by
  cases x with
  | cmd24 w u => cases u <;> rfl
  | _ => rfl

/-- Taking an event never changes the moves to come. -/
@[simp] theorem Env.take_script (e : Env) (x : Code) : (e.take x).script = e.script := by
  cases x with
  | cmd24 w u => cases u <;> rfl
  | _ => rfl

/-- Only `Rx` takes a byte from the source (R69). -/
theorem Env.take_source (e : Env) (x : Code) :
    (e.take x).source = match x with | .byte8 _ _ => e.source.tail | _ => e.source := by
  cases x with
  | cmd24 w u => cases u <;> rfl
  | _ => rfl

/-- The environment never touches the sink: only the block writes it (R39). -/
@[simp] theorem Env.arrive_sink (e : Env) : e.arrive.sink = e.sink := by
  unfold Env.arrive; split <;> rfl

/-! ## `frameComplete` -/

@[simp] theorem frameComplete_seqState (s : State) : (frameComplete s).seqState = .decoded := rfl
@[simp] theorem frameComplete_rxState (s : State) : (frameComplete s).rxState = .awaitingStart := rfl
@[simp] theorem frameComplete_rxBuf (s : State) : (frameComplete s).rxBuf = s.rxBuf := rfl
@[simp] theorem frameComplete_rxLen (s : State) : (frameComplete s).rxLen = s.rxLen := rfl
@[simp] theorem frameComplete_rxOvf (s : State) : (frameComplete s).rxOvf = s.rxOvf := rfl
@[simp] theorem frameComplete_txBuf (s : State) : (frameComplete s).txBuf = s.txBuf := rfl
@[simp] theorem frameComplete_txLen (s : State) : (frameComplete s).txLen = s.txLen := rfl
@[simp] theorem frameComplete_txIdx (s : State) : (frameComplete s).txIdx = s.txIdx := rfl
@[simp] theorem frameComplete_lastCmd (s : State) : (frameComplete s).lastCmd = s.lastCmd := rfl
@[simp] theorem frameComplete_resValid (s : State) : (frameComplete s).resValid = s.resValid := rfl
@[simp] theorem frameComplete_res (s : State) : (frameComplete s).res = s.res := rfl
@[simp] theorem frameComplete_env (s : State) : (frameComplete s).env = s.env := rfl

/-! ## `endExchange` -/

@[simp] theorem endExchange_seqState (r : Result) (s : State) : (endExchange r s).seqState = .idle := rfl
@[simp] theorem endExchange_rxState (r : Result) (s : State) : (endExchange r s).rxState = s.rxState := rfl
@[simp] theorem endExchange_rxBuf (r : Result) (s : State) : (endExchange r s).rxBuf = s.rxBuf := rfl
@[simp] theorem endExchange_rxLen (r : Result) (s : State) : (endExchange r s).rxLen = 0 := rfl
@[simp] theorem endExchange_rxOvf (r : Result) (s : State) : (endExchange r s).rxOvf = false := rfl
@[simp] theorem endExchange_txBuf (r : Result) (s : State) : (endExchange r s).txBuf = s.txBuf := rfl
@[simp] theorem endExchange_txLen (r : Result) (s : State) : (endExchange r s).txLen = 0 := rfl
@[simp] theorem endExchange_txIdx (r : Result) (s : State) : (endExchange r s).txIdx = 0 := rfl
@[simp] theorem endExchange_lastCmd (r : Result) (s : State) : (endExchange r s).lastCmd = s.lastCmd := rfl
@[simp] theorem endExchange_resValid (r : Result) (s : State) : (endExchange r s).resValid = true := rfl
@[simp] theorem endExchange_res (r : Result) (s : State) : (endExchange r s).res = r := rfl
@[simp] theorem endExchange_env_source (r : Result) (s : State) :
    (endExchange r s).env.source = s.env.source := rfl
@[simp] theorem endExchange_env_sink (r : Result) (s : State) :
    (endExchange r s).env.sink = s.env.sink := rfl
@[simp] theorem endExchange_env_resetStrobe (r : Result) (s : State) :
    (endExchange r s).env.resetStrobe = s.env.resetStrobe := rfl
@[simp] theorem endExchange_env_deadlineStrobe (r : Result) (s : State) :
    (endExchange r s).env.deadlineStrobe = s.env.deadlineStrobe := rfl
@[simp] theorem endExchange_env_txReady (r : Result) (s : State) :
    (endExchange r s).env.txReady = s.env.txReady := rfl
@[simp] theorem endExchange_env_reqs (r : Result) (s : State) :
    (endExchange r s).env.reqs = s.env.reqs := rfl
@[simp] theorem endExchange_env_probe (r : Result) (s : State) :
    (endExchange r s).env.probe = s.env.probe := rfl
@[simp] theorem endExchange_env_script (r : Result) (s : State) :
    (endExchange r s).env.script = s.env.script := rfl
@[simp] theorem endExchange_env_output (r : Result) (s : State) :
    (endExchange r s).env.output = some .done := rfl

/-! ## `resetBlock` -/

@[simp] theorem resetBlock_seqState (s : State) : (resetBlock s).seqState = State.reset.seqState := rfl
@[simp] theorem resetBlock_rxState (s : State) : (resetBlock s).rxState = State.reset.rxState := rfl
@[simp] theorem resetBlock_rxBuf (s : State) : (resetBlock s).rxBuf = State.reset.rxBuf := rfl
@[simp] theorem resetBlock_rxLen (s : State) : (resetBlock s).rxLen = State.reset.rxLen := rfl
@[simp] theorem resetBlock_rxOvf (s : State) : (resetBlock s).rxOvf = State.reset.rxOvf := rfl
@[simp] theorem resetBlock_txBuf (s : State) : (resetBlock s).txBuf = State.reset.txBuf := rfl
@[simp] theorem resetBlock_txLen (s : State) : (resetBlock s).txLen = State.reset.txLen := rfl
@[simp] theorem resetBlock_txIdx (s : State) : (resetBlock s).txIdx = State.reset.txIdx := rfl
@[simp] theorem resetBlock_lastCmd (s : State) : (resetBlock s).lastCmd = State.reset.lastCmd := rfl
@[simp] theorem resetBlock_resValid (s : State) : (resetBlock s).resValid = State.reset.resValid := rfl
@[simp] theorem resetBlock_res (s : State) : (resetBlock s).res = State.reset.res := rfl
@[simp] theorem resetBlock_env_source (s : State) : (resetBlock s).env.source = s.env.source := rfl
@[simp] theorem resetBlock_env_sink (s : State) : (resetBlock s).env.sink = s.env.sink := rfl
@[simp] theorem resetBlock_env_resetStrobe (s : State) : (resetBlock s).env.resetStrobe = s.env.resetStrobe := rfl
@[simp] theorem resetBlock_env_deadlineStrobe (s : State) : (resetBlock s).env.deadlineStrobe = s.env.deadlineStrobe := rfl
@[simp] theorem resetBlock_env_txReady (s : State) : (resetBlock s).env.txReady = s.env.txReady := rfl
@[simp] theorem resetBlock_env_reqs (s : State) : (resetBlock s).env.reqs = s.env.reqs := rfl
@[simp] theorem resetBlock_env_probe (s : State) : (resetBlock s).env.probe = s.env.probe := rfl
@[simp] theorem resetBlock_env_script (s : State) : (resetBlock s).env.script = s.env.script := rfl
@[simp] theorem resetBlock_env_output (s : State) : (resetBlock s).env.output = none := rfl

/-! ## `keep` and `preamble`: only `rx_buf`, `rx_len` and `rx_ovf` change -/

@[simp] theorem keep_seqState (c : Config) (b : Byte) (s : State) : (keep c b s).seqState = s.seqState := by
  unfold keep; split <;> rfl
@[simp] theorem keep_rxState (c : Config) (b : Byte) (s : State) : (keep c b s).rxState = s.rxState := by
  unfold keep; split <;> rfl
@[simp] theorem keep_txBuf (c : Config) (b : Byte) (s : State) : (keep c b s).txBuf = s.txBuf := by
  unfold keep; split <;> rfl
@[simp] theorem keep_txLen (c : Config) (b : Byte) (s : State) : (keep c b s).txLen = s.txLen := by
  unfold keep; split <;> rfl
@[simp] theorem keep_txIdx (c : Config) (b : Byte) (s : State) : (keep c b s).txIdx = s.txIdx := by
  unfold keep; split <;> rfl
@[simp] theorem keep_lastCmd (c : Config) (b : Byte) (s : State) : (keep c b s).lastCmd = s.lastCmd := by
  unfold keep; split <;> rfl
@[simp] theorem keep_resValid (c : Config) (b : Byte) (s : State) : (keep c b s).resValid = s.resValid := by
  unfold keep; split <;> rfl
@[simp] theorem keep_res (c : Config) (b : Byte) (s : State) : (keep c b s).res = s.res := by
  unfold keep; split <;> rfl
@[simp] theorem keep_env (c : Config) (b : Byte) (s : State) : (keep c b s).env = s.env := by
  unfold keep; split <;> rfl
@[simp] theorem preamble_seqState (c : Config) (b : Byte) (s : State) : (preamble c b s).seqState = s.seqState := by
  unfold preamble; split <;> simp
@[simp] theorem preamble_rxState (c : Config) (b : Byte) (s : State) : (preamble c b s).rxState = s.rxState := by
  unfold preamble; split <;> simp
@[simp] theorem preamble_txBuf (c : Config) (b : Byte) (s : State) : (preamble c b s).txBuf = s.txBuf := by
  unfold preamble; split <;> simp
@[simp] theorem preamble_txLen (c : Config) (b : Byte) (s : State) : (preamble c b s).txLen = s.txLen := by
  unfold preamble; split <;> simp
@[simp] theorem preamble_txIdx (c : Config) (b : Byte) (s : State) : (preamble c b s).txIdx = s.txIdx := by
  unfold preamble; split <;> simp
@[simp] theorem preamble_lastCmd (c : Config) (b : Byte) (s : State) : (preamble c b s).lastCmd = s.lastCmd := by
  unfold preamble; split <;> simp
@[simp] theorem preamble_resValid (c : Config) (b : Byte) (s : State) : (preamble c b s).resValid = s.resValid := by
  unfold preamble; split <;> simp
@[simp] theorem preamble_res (c : Config) (b : Byte) (s : State) : (preamble c b s).res = s.res := by
  unfold preamble; split <;> simp
@[simp] theorem preamble_env (c : Config) (b : Byte) (s : State) : (preamble c b s).env = s.env := by
  unfold preamble; split <;> simp

/-! ## `recognize`: the transmit state, the result registers and the environment are untouched -/

@[simp] theorem recognize_txBuf (c : Config) (b : Byte) (s : State) : (recognize c b s).txBuf = s.txBuf := by
  unfold recognize; split <;> split <;> simp
@[simp] theorem recognize_txLen (c : Config) (b : Byte) (s : State) : (recognize c b s).txLen = s.txLen := by
  unfold recognize; split <;> split <;> simp
@[simp] theorem recognize_txIdx (c : Config) (b : Byte) (s : State) : (recognize c b s).txIdx = s.txIdx := by
  unfold recognize; split <;> split <;> simp
@[simp] theorem recognize_lastCmd (c : Config) (b : Byte) (s : State) : (recognize c b s).lastCmd = s.lastCmd := by
  unfold recognize; split <;> split <;> simp
@[simp] theorem recognize_resValid (c : Config) (b : Byte) (s : State) : (recognize c b s).resValid = s.resValid := by
  unfold recognize; split <;> split <;> simp
@[simp] theorem recognize_res (c : Config) (b : Byte) (s : State) : (recognize c b s).res = s.res := by
  unfold recognize; split <;> split <;> simp
@[simp] theorem recognize_env (c : Config) (b : Byte) (s : State) : (recognize c b s).env = s.env := by
  unfold recognize; split <;> split <;> simp

/-! ## The result registers -/

@[simp] theorem Result.withContext_kind (r : Result) (d : Decoded) : (r.withContext d).kind = r.kind := rfl
@[simp] theorem Result.withContext_cause (r : Result) (d : Decoded) : (r.withContext d).cause = r.cause := rfl
@[simp] theorem Result.withContext_cmd (r : Result) (d : Decoded) : (r.withContext d).cmd = d.cmd := rfl
@[simp] theorem Result.withContext_nwords (r : Result) (d : Decoded) : (r.withContext d).nwords = r.nwords := rfl
@[simp] theorem Result.withContext_words (r : Result) (d : Decoded) : (r.withContext d).words = r.words := rfl
@[simp] theorem Result.withContext_errcode (r : Result) (d : Decoded) : (r.withContext d).errcode = r.errcode := rfl
@[simp] theorem Result.withContext_msg (r : Result) (d : Decoded) : (r.withContext d).msg = r.msg := rfl
@[simp] theorem Result.withContext_expLen (r : Result) (d : Decoded) : (r.withContext d).expLen = d.expLen := rfl
@[simp] theorem Result.withContext_actLen (r : Result) (d : Decoded) : (r.withContext d).actLen = d.actLen := rfl
@[simp] theorem Result.withContext_chkCalc (r : Result) (d : Decoded) : (r.withContext d).chkCalc = d.chkCalc := rfl
@[simp] theorem Result.withContext_chkRecv (r : Result) (d : Decoded) : (r.withContext d).chkRecv = d.chkRecv := rfl
@[simp] theorem Result.frameError_kind (r : Result) (x : Cause) : (r.frameError x).kind = .frameError := rfl
@[simp] theorem Result.frameError_cause (r : Result) (x : Cause) : (r.frameError x).cause = x := rfl
@[simp] theorem Result.frameError_cmd (r : Result) (x : Cause) : (r.frameError x).cmd = r.cmd := rfl
@[simp] theorem Result.frameError_nwords (r : Result) (x : Cause) : (r.frameError x).nwords = r.nwords := rfl
@[simp] theorem Result.frameError_words (r : Result) (x : Cause) : (r.frameError x).words = r.words := rfl
@[simp] theorem Result.frameError_errcode (r : Result) (x : Cause) : (r.frameError x).errcode = r.errcode := rfl
@[simp] theorem Result.frameError_msg (r : Result) (x : Cause) : (r.frameError x).msg = r.msg := rfl
@[simp] theorem Result.frameError_expLen (r : Result) (x : Cause) : (r.frameError x).expLen = r.expLen := rfl
@[simp] theorem Result.frameError_actLen (r : Result) (x : Cause) : (r.frameError x).actLen = r.actLen := rfl
@[simp] theorem Result.frameError_chkCalc (r : Result) (x : Cause) : (r.frameError x).chkCalc = r.chkCalc := rfl
@[simp] theorem Result.frameError_chkRecv (r : Result) (x : Cause) : (r.frameError x).chkRecv = r.chkRecv := rfl
@[simp] theorem Result.deviceError_kind (r : Result) (e : Word) : (r.deviceError e).kind = .deviceError := rfl
@[simp] theorem Result.deviceError_cause (r : Result) (e : Word) : (r.deviceError e).cause = r.cause := rfl
@[simp] theorem Result.deviceError_cmd (r : Result) (e : Word) : (r.deviceError e).cmd = r.cmd := rfl
@[simp] theorem Result.deviceError_nwords (r : Result) (e : Word) : (r.deviceError e).nwords = 1 := rfl
@[simp] theorem Result.deviceError_words (r : Result) (e : Word) : (r.deviceError e).words = { r.words with w0 := e } := rfl
@[simp] theorem Result.deviceError_errcode (r : Result) (e : Word) : (r.deviceError e).errcode = e := rfl
@[simp] theorem Result.deviceError_msg (r : Result) (e : Word) : (r.deviceError e).msg = msgIndex e := rfl
@[simp] theorem Result.deviceError_expLen (r : Result) (e : Word) : (r.deviceError e).expLen = r.expLen := rfl
@[simp] theorem Result.deviceError_actLen (r : Result) (e : Word) : (r.deviceError e).actLen = r.actLen := rfl
@[simp] theorem Result.deviceError_chkCalc (r : Result) (e : Word) : (r.deviceError e).chkCalc = r.chkCalc := rfl
@[simp] theorem Result.deviceError_chkRecv (r : Result) (e : Word) : (r.deviceError e).chkRecv = r.chkRecv := rfl
@[simp] theorem Result.success_kind (r : Result) (ws : List Word) : (r.success ws).kind = .success := rfl
@[simp] theorem Result.success_cause (r : Result) (ws : List Word) : (r.success ws).cause = r.cause := rfl
@[simp] theorem Result.success_cmd (r : Result) (ws : List Word) : (r.success ws).cmd = r.cmd := rfl
@[simp] theorem Result.success_nwords (r : Result) (ws : List Word) : (r.success ws).nwords = ws.length := rfl
@[simp] theorem Result.success_words (r : Result) (ws : List Word) : (r.success ws).words = resWordsOf ws := rfl
@[simp] theorem Result.success_errcode (r : Result) (ws : List Word) : (r.success ws).errcode = r.errcode := rfl
@[simp] theorem Result.success_msg (r : Result) (ws : List Word) : (r.success ws).msg = r.msg := rfl
@[simp] theorem Result.success_expLen (r : Result) (ws : List Word) : (r.success ws).expLen = r.expLen := rfl
@[simp] theorem Result.success_actLen (r : Result) (ws : List Word) : (r.success ws).actLen = r.actLen := rfl
@[simp] theorem Result.success_chkCalc (r : Result) (ws : List Word) : (r.success ws).chkCalc = r.chkCalc := rfl
@[simp] theorem Result.success_chkRecv (r : Result) (ws : List Word) : (r.success ws).chkRecv = r.chkRecv := rfl

end Sys2Proof.Machine
end

