-- ==== Sys2Proof/Laws/Ops.lean ====
section
/-! SUPPORT. For each shared operation, one lemma that says once everything it can do: later proofs cite
it instead of unfolding the operation. -/

namespace Sys2Proof.Machine

/-- `keep` either stores the byte at the end of the buffer, or finds the buffer full (R151). -/
theorem keep_cases (c : Config) (b : Byte) (s : State) :
    (s.rxLen < c.rxCap ∧ (keep c b s).rxLen = s.rxLen + 1 ∧ (keep c b s).rxOvf = s.rxOvf ∧
      (keep c b s).rxBuf = Memory.write s.rxBuf s.rxLen b) ∨
    (c.rxCap ≤ s.rxLen ∧ (keep c b s).rxLen = s.rxLen ∧ (keep c b s).rxOvf = true ∧
      (keep c b s).rxBuf = s.rxBuf) := by
  unfold keep
  split
  · exact .inl ⟨‹_›, rfl, rfl, rfl⟩
  · exact .inr ⟨by omega, rfl, rfl, rfl⟩

/-- A byte read before the one kept is still there. -/
theorem keep_read_below (c : Config) (b : Byte) (s : State) {i : Nat} (h : i < s.rxLen) :
    Memory.read (keep c b s).rxBuf i = Memory.read s.rxBuf i := by
  rcases keep_cases c b s with ⟨-, -, -, hb⟩ | ⟨-, -, -, hb⟩
  · rw [hb, Memory.read_write_other _ _ (by omega)]
  · rw [hb]

/-- A row of the recognizer's table runs its action where it applies, and waits elsewhere. -/
theorem rxTransition_eq (st : RxState) (act : State → State) (s : State) :
    rxTransition st act s = .next (if s.seqState = .awaitingFrame ∧ s.rxState = st then
      (act s).withOutput none else s.withOutput none) := by
  unfold rxTransition unchanged; split <;> rfl

/-- ENCODE gives the frame of R134, or refuses a DATA field above `TX_MAX_DATA` (R133). -/
theorem encodeFrame_eq_ok {c : Config} {k : Cmd} {p : Payload} {f : List Byte} :
    encodeFrame c k p = .ok f ↔
      (dataBytes p).length ≤ c.txMaxData ∧ f = frameBytes (upperCmd k) (dataBytes p) := by
  unfold encodeFrame
  split
  · simp; omega
  · simp [eq_comm]; omega

theorem encodeFrame_eq_error {c : Config} {k : Cmd} {p : Payload} {r : RefusedReason} :
    encodeFrame c k p = .error r ↔ c.txMaxData < (dataBytes p).length ∧ r = .payloadTooLong := by
  unfold encodeFrame
  split <;> simp_all [eq_comm]

/-- The length of a frame is 8 more than that of its DATA field (R91). -/
@[simp] theorem frameBytes_length (k : Cmd) (d : List Byte) : (frameBytes k d).length = 8 + d.length := by
  simp [frameBytes, frameBody, Cmd.toList, CharPair.toList]; omega

/-- A frame that ENCODE builds fits the transmit buffer, so EXCHANGE start never faults. -/
theorem exchangeStart_eq (c : Config) (k : Cmd) (p : Payload) (s : State) :
    exchangeStart c k p s = .next (
      if s.seqState ≠ .idle then s.withOutput (some (.refused .busy))
      else if c.txMaxData < (dataBytes p).length then s.withOutput (some (.refused .payloadTooLong))
      else
        { s with
            txBuf := Memory.writeRange s.txBuf 0 (frameBytes (upperCmd k) (dataBytes p))
            txLen := 8 + (dataBytes p).length
            txIdx := 0
            lastCmd := cmdField (frameBytes (upperCmd k) (dataBytes p))
            rxLen := 0
            rxOvf := false
            rxState := .awaitingStart
            resValid := false
            res := Result.zero
            seqState := .sent
            env := { s.env with output := none } }) := by
  unfold exchangeStart
  split
  · rfl
  · split
    · rename_i r hr
      obtain ⟨h, rfl⟩ := encodeFrame_eq_error.mp hr
      rw [if_pos h]
    · rename_i f hf
      obtain ⟨h, rfl⟩ := encodeFrame_eq_ok.mp hf
      rw [if_neg (by omega)]
      have hfit : memWrite c.txCap s.txBuf 0 (frameBytes (upperCmd k) (dataBytes p))
          = .ok (Memory.writeRange s.txBuf 0 (frameBytes (upperCmd k) (dataBytes p))) :=
        memWrite_eq_ok.mpr ⟨by simp [Config.txCap]; omega, rfl⟩
      rw [hfit]
      simp [State.withOutput]

/-- The transmit step answers a next state exactly when the block is not in Sent, or the next byte lies in
the buffer and has been written (R137). -/
theorem transmitByte_eq_next {c : Config} {s t : State} (h : transmitByte c s = .next t) :
    (s.seqState ≠ .sent ∧ t = s.withOutput none) ∨
    (s.seqState = .sent ∧ ∃ b, Memory.read s.txBuf s.txIdx = some b ∧ s.txIdx < c.txCap ∧
      t = { s with
        txIdx := s.txIdx + 1
        seqState := if s.txIdx + 1 = s.txLen then .awaitingFrame else .sent
        env := { s.env with sink := s.env.sink ++ [b], output := some (.tx b) } }) := by
  unfold transmitByte at h
  split at h
  · rename_i hs
    split at h
    · cases h
    · rename_i bs hbs
      obtain ⟨hcap, hr⟩ := memRead_eq_ok.mp hbs
      obtain ⟨hl, hr⟩ := Memory.readRange_eq_some.mp hr
      obtain ⟨b, rfl⟩ := List.length_eq_one_iff.mp hl
      have hb : Memory.read s.txBuf s.txIdx = some b := by simpa using hr 0 (by omega)
      refine .inr ⟨hs, b, hb, by omega, ?_⟩
      simpa [byteAt] using h.symm
  · rename_i hs
    exact .inl ⟨hs, by simpa [unchanged] using h.symm⟩

/-- The transmit step in Sent, when the next byte is there (R137). -/
theorem transmitByte_sent {c : Config} {s : State} {b : Byte} (hs : s.seqState = .sent)
    (hc : s.txIdx < c.txCap) (hb : Memory.read s.txBuf s.txIdx = some b) :
    transmitByte c s = .next { s with
      txIdx := s.txIdx + 1
      seqState := if s.txIdx + 1 = s.txLen then .awaitingFrame else .sent
      env := { s.env with sink := s.env.sink ++ [b], output := some (.tx b) } } := by
  have h : memRead c.txCap s.txBuf s.txIdx 1 = .ok [b] :=
    memRead_eq_ok.mpr ⟨by omega, by simp [Memory.readRange, hb]⟩
  simp [transmitByte, hs, h, byteAt]

/-- CLASSIFY ends the exchange with the outcome of the raw frame, and does nothing outside Decoded
(R270). -/
theorem classifyFrame_eq_next {c : Config} {s t : State} (h : classifyFrame c s = .next t) :
    (s.seqState ≠ .decoded ∧ t = s.withOutput none) ∨
    (s.seqState = .decoded ∧ ∃ f, rawFrame c s = .ok f ∧
      t = endExchange (outcome c s.lastCmd (decodeFrame c f s.rxOvf) s.res) s) := by
  unfold classifyFrame at h
  split at h
  · rename_i hs
    split at h
    · cases h
    · rename_i f hf
      exact .inr ⟨hs, f, hf, by simpa using h.symm⟩
  · rename_i hs
    exact .inl ⟨hs, by simpa [unchanged] using h.symm⟩

theorem classifyFrame_decoded {c : Config} {s : State} {f : List Byte} (hs : s.seqState = .decoded)
    (hf : rawFrame c s = .ok f) :
    classifyFrame c s = .next (endExchange (outcome c s.lastCmd (decodeFrame c f s.rxOvf) s.res) s) := by
  simp [classifyFrame, hs, hf]

/-- The raw frame has as many bytes as `rx_len` says. -/
theorem rawFrame_length {c : Config} {s : State} {f : List Byte} (h : rawFrame c s = .ok f) :
    f.length = s.rxLen :=
  (Memory.readRange_eq_some.mp (memRead_eq_ok.mp h).2).1

/-- DEADLINE ends a waiting exchange with Timeout and does nothing in Idle and Decoded (R277). -/
theorem deadlineExpired_eq (s : State) :
    deadlineExpired s = .next (
      if s.seqState = .sent ∨ s.seqState = .awaitingFrame then
        { endExchange { s.res with kind := .timeout, cause := .none, actLen := s.rxLen } s with
          rxState := .awaitingStart }
      else s.withOutput none) := by
  unfold deadlineExpired unchanged; split <;> rfl

/-- Each outcome CLASSIFY can decide, with what it writes (R270 to R273). -/
theorem outcome_cases (c : Config) (last : Cmd) (d : Decoded) (r : Result) :
    (∃ x, d.result = .frameError x ∧ outcome c last d r = (r.withContext d).frameError x) ∨
    (∃ ws, d.result = .ok sentinel ws ∧
      outcome c last d r = (r.withContext d).deviceError (ws.headD 0)) ∨
    (∃ k ws, d.result = .ok k ws ∧ k ≠ sentinel ∧ c.echoCheck = true ∧ k ≠ lowerCmd last ∧
      outcome c last d r = (r.withContext d).frameError .echoMismatch) ∨
    (∃ k ws, d.result = .ok k ws ∧ k ≠ sentinel ∧ (c.echoCheck = true → k = lowerCmd last) ∧
      outcome c last d r = (r.withContext d).success ws) := by
  unfold outcome
  cases hd : d.result with
  | frameError x => exact .inl ⟨x, rfl, rfl⟩
  | ok k ws =>
    by_cases hk : k = sentinel
    · subst hk
      exact .inr (.inl ⟨ws, rfl, by simp⟩)
    · by_cases he : c.echoCheck ∧ k ≠ lowerCmd last
      · exact .inr (.inr (.inl ⟨k, ws, rfl, hk, he.1, he.2, by simp [hk, he]⟩))
      · refine .inr (.inr (.inr ⟨k, ws, rfl, hk, fun h => ?_, by simp only [hk, he, if_false]⟩))
        by_contra hne
        exact he ⟨h, hne⟩

end Sys2Proof.Machine
end

