-- ==== Sys2Proof/Laws/Decode.lean ====
section
/-! SUPPORT. What DECODE and the catalog can answer: later proofs cite these instead of unfolding them. -/

namespace Sys2Proof.Machine

/-- The words of a DATA field that parses are a quarter as many as its bytes (R194). -/
theorem parseWords_length {c : Config} : ∀ {d : List Byte} {ws : List Word},
    parseWords c d = some ws → d.length = 4 * ws.length
  | [], ws, h => by simp [parseWords] at h; subst h; rfl
  | [_], ws, h => by simp [parseWords] at h
  | [_, _], ws, h => by simp [parseWords] at h
  | [_, _, _], ws, h => by simp [parseWords] at h
  | _ :: _ :: _ :: _ :: rest, ws, h => by
    simp only [parseWords] at h
    split at h
    · rename_i w ws' _ h2
      simp at h
      subst h
      have := parseWords_length h2
      simp
      omega
    · cases h

/-- A code with a size has a row of the catalog (R210). -/
theorem catalogSize_eq_some {c : Config} {k : Cmd} {n : Nat} (h : catalogSize c k = some n) :
    ∃ r ∈ c.catalog, r.code = k ∧ r.size = n := by
  simp only [catalogSize, Option.map_eq_some_iff] at h
  obtain ⟨r, hr, rfl⟩ := h
  exact ⟨r, List.mem_of_find?_eq_some hr, by simpa using List.find?_some hr, rfl⟩

/-- The bounds of a row of a well-formed catalog (R66, R228). -/
theorem catalog_bounds {c : Config} (hc : c.wf = true) {r : CatalogRow} (h : r ∈ c.catalog) :
    r.size % 4 = 0 ∧ r.size ≤ 24 ∧ 8 + r.size ≤ c.rxCap := by
  simp [Config.wf, Config.catalogOk] at hc
  have := hc.1.2.1.1 r h
  tauto

/-- What the dispatcher reports of a known CMD field (R211, R212). -/
theorem dispatchLookup_eq_some {c : Config} {k : Cmd} {e : CatalogEntry} (h : dispatchLookup c k = some e) :
    ∃ r ∈ c.catalog, r.code = lowerCmd k ∧ e = ⟨lowerCmd k, r.size, 8 + r.size, r.size / 4⟩ := by
  simp only [dispatchLookup, Option.map_eq_some_iff] at h
  obtain ⟨n, hn, rfl⟩ := h
  obtain ⟨r, hr, h1, rfl⟩ := catalogSize_eq_some hn
  exact ⟨r, hr, h1, rfl⟩

theorem slice_length {f : List Byte} {i j : Nat} (h : j ≤ f.length) : (slice f i j).length = j - i := by
  simp [slice]
  omega

/-- Every check that a frame has passed when DECODE accepts it, and the words it supplies (R182 to
R197). -/
theorem decodeFrame_ok {c : Config} {f : List Byte} {ovf : Bool} {k : Cmd} {ws : List Word}
    (h : (decodeFrame c f ovf).result = .ok k ws) :
    ovf = false ∧ 8 ≤ f.length ∧ byteAt f 0 = STX ∧ byteAt f (f.length - 1) = CR ∧
    byteAt f (f.length - 4) = ETX ∧ k = lowerCmd (cmdField f) ∧
    catalogSize c k = some (f.length - 8) ∧
    checksumFails c (chk (slice f 0 (f.length - 3))) (chkField f) = false ∧
    parseWords c (dataField f) = some ws := by
  unfold decodeFrame at h
  split at h
  · cases h
  split at h
  · cases h
  split at h
  · cases h
  split at h
  · cases h
  split at h
  · cases h
  split at h
  · cases h
  rename_i h0 h1 h2 h3 h4 _ e he
  have he' := he
  simp only [dispatchLookup, Option.map_eq_some_iff] at he'
  obtain ⟨n, hn, rfl⟩ := he'
  split at h
  · cases h
  split at h
  · cases h
  split at h
  · cases h
  rename_i h5 h6 _ ws' hw
  obtain ⟨rfl, rfl⟩ := DecodeResult.ok.inj h
  have h5' : f.length - 8 = n := by simpa using h5
  have h0' : ovf = false := by simpa using h0
  have h6' : checksumFails c (chk (slice f 0 (f.length - 3))) (chkField f) = false := by simpa using h6
  exact ⟨h0', by omega, by simpa using h2, by simpa using h3, by simpa using h4, rfl, by rw [hn, h5'],
    h6', hw⟩

end Sys2Proof.Machine
end

