-- ==== Sys2Proof/Laws/Dispatch.lean ====
section
/-! SUPPORT. The machine of the fixed names is the parametric one at the values the spec takes (R8). -/

namespace Sys2Proof.Machine

theorem exec_eq_execWith (i : Instr) (s : State) : exec i s = execWith Config.spec i s := by
  cases i <;> rfl

theorem step_eq_stepWith (s : State) : step s = stepWith Config.spec s := by
  simp only [step, stepWith, exec_eq_execWith]

/-- The meaning of a command's row, for any of the 15. -/
theorem execWith_commandInstr (c : Config) (m : Command) (sp : Spelling) (u : CmdUse) (s : State) :
    execWith c (commandInstr m sp u) s = commandMeaning m sp u c s := by
  cases m <;> rfl

end Sys2Proof.Machine
end

