-- ==== Sys2Proof/Laws/Effects.lean ====
section
/-! SUPPORT. Everything an instruction can do to the state, in eleven forms, and the inversion lemma that
says no instruction does anything else. Invariants and frames are proved from it by cases. -/

namespace Sys2Proof.Machine

/-- The state with other bytes waiting in the source. -/
def State.withSource (s : State) (src : List Byte) : State := { s with env := { s.env with source := src } }

/-- The forms that the effect of an instruction takes. -/
inductive Effect (c : Config) (s : State) : State → Prop
  /-- nothing changes; the output, if any, is a refusal or a returned value -/
  | quiet (o : Option Output) (hd : o ≠ some .done) (ht : ∀ b, o ≠ some (.tx b)) :
      Effect c s (s.withOutput o)
  /-- EXCHANGE start (R262) -/
  | start (k : Cmd) (p : Payload) (hs : s.seqState = .idle) (hp : (dataBytes p).length ≤ c.txMaxData) :
      Effect c s
        { s with
            txBuf := Memory.writeRange s.txBuf 0 (frameBytes (upperCmd k) (dataBytes p))
            txLen := 8 + (dataBytes p).length
            txIdx := 0
            lastCmd := cmdField (frameBytes (upperCmd k) (dataBytes p))
            rxLen := 0
            rxOvf := false
            rxState := .awaitingStart
            resValid := false
            res := Result.zero
            seqState := .sent
            env := { s.env with output := none } }
  /-- the transmit step (R137) -/
  | send (b : Byte) (hs : s.seqState = .sent) (hb : Memory.read s.txBuf s.txIdx = some b)
      (hc : s.txIdx < c.txCap) :
      Effect c s
        { s with
          txIdx := s.txIdx + 1
          seqState := if s.txIdx + 1 = s.txLen then .awaitingFrame else .sent
          env := { s.env with sink := s.env.sink ++ [b], output := some (.tx b) } }
  /-- a byte before any STX is discarded (R153 to R155) -/
  | discard (src : List Byte) (hs : s.seqState = .awaitingFrame) (hr : s.rxState = .awaitingStart)
      (hk : c.rxKeepPreamble = false) : Effect c s ((s.withSource src).withOutput none)
  /-- a byte is kept and the recognizer stays (R153 to R163) -/
  | stay (src : List Byte) (b : Byte) (hs : s.seqState = .awaitingFrame)
      (hk : s.rxState = .awaitingStart → c.rxKeepPreamble = true) :
      Effect c s ((keep c b (s.withSource src)).withOutput none)
  /-- STX in AwaitingStart (R152) -/
  | stx (src : List Byte) (hs : s.seqState = .awaitingFrame) (hr : s.rxState = .awaitingStart) :
      Effect c s (State.withOutput { keep c STX (s.withSource src) with rxState := .awaitingEnd } none)
  /-- ETX in AwaitingEnd (R157) -/
  | etx (src : List Byte) (hs : s.seqState = .awaitingFrame) (hr : s.rxState = .awaitingEnd) :
      Effect c s
        (State.withOutput { keep c ETX (s.withSource src) with rxState := .awaitingTerminator } none)
  /-- CR in AwaitingTerminator (R160) -/
  | cr (src : List Byte) (hs : s.seqState = .awaitingFrame) (hr : s.rxState = .awaitingTerminator) :
      Effect c s ((frameComplete (keep c CR (s.withSource src))).withOutput none)
  /-- CLASSIFY (R270) -/
  | classify (f : List Byte) (hs : s.seqState = .decoded) (hf : rawFrame c s = .ok f) :
      Effect c s (endExchange (outcome c s.lastCmd (decodeFrame c f s.rxOvf) s.res) s)
  /-- DEADLINE (R277) -/
  | deadline (hs : s.seqState = .sent ∨ s.seqState = .awaitingFrame) :
      Effect c s
        { endExchange { s.res with kind := .timeout, cause := .none, actLen := s.rxLen } s with
          rxState := .awaitingStart }
  /-- RESET (R279) -/
  | reset : Effect c s (resetBlock s)

theorem effect_unchanged (c : Config) (s : State) : Effect c s (s.withOutput none) :=
  .quiet none (by simp) (by simp)

theorem effect_giveValue {c : Config} {v : Value} {s t : State} (h : giveValue v s = .next t) :
    Effect c s t := by
  obtain rfl : s.withOutput (some (.returned v)) = t := by simpa [giveValue] using h
  exact .quiet _ (by simp) (by simp)

theorem effect_exchangeStart {c : Config} {k : Cmd} {p : Payload} {s t : State}
    (h : exchangeStart c k p s = .next t) : Effect c s t := by
  rw [exchangeStart_eq] at h
  obtain rfl := Host.Outcome.next.inj h
  split
  · exact .quiet _ (by simp) (by simp)
  · split
    · exact .quiet _ (by simp) (by simp)
    · exact .start k p (by simp_all) (by omega)

theorem effect_rxTransition {c : Config} {st : RxState} {act : State → State} {s t : State}
    (h : rxTransition st act s = .next t)
    (ha : s.seqState = .awaitingFrame → s.rxState = st → Effect c s ((act s).withOutput none)) :
    Effect c s t := by
  rw [rxTransition_eq] at h
  obtain rfl := Host.Outcome.next.inj h
  split
  · rename_i hs
    exact ha hs.1 hs.2
  · exact effect_unchanged c s

/-- A byte of the preamble is discarded or kept, as the parameter says (R153 to R155). -/
theorem effect_preamble {c : Config} {b : Byte} {s : State} (src : List Byte)
    (hs : s.seqState = .awaitingFrame) (hr : s.rxState = .awaitingStart) :
    Effect c s ((preamble c b (s.withSource src)).withOutput none) := by
  unfold preamble
  split
  · exact .stay src b hs (fun _ => ‹_›)
  · exact .discard src hs hr (by simp_all)

/-- The recognizer's function of one byte, with the source it leaves (R164). -/
theorem effect_recognize {c : Config} {b : Byte} {s : State} (src : List Byte)
    (hs : s.seqState = .awaitingFrame) :
    Effect c s ((recognize c b (s.withSource src)).withOutput none) := by
  have hr : (s.withSource src).rxState = s.rxState := rfl
  unfold recognize
  split
  · rename_i h
    rw [hr] at h
    split
    · rename_i hb
      subst hb
      exact .stx src hs h
    · exact effect_preamble src hs h
  · rename_i h
    rw [hr] at h
    split
    · rename_i hb
      subst hb
      exact .etx src hs h
    · exact .stay src b hs (by simp [h])
  · rename_i h
    rw [hr] at h
    split
    · rename_i hb
      subst hb
      exact .cr src hs h
    · exact .stay src b hs (by simp [h])

theorem effect_commandMeaning {c : Config} {m : Command} {sp : Spelling} {u : CmdUse} {s t : State}
    (h : commandMeaning m sp u c s = .next t) : Effect c s t := by
  cases u with
  | request p => exact effect_exchangeStart h
  | dispatch => exact effect_giveValue h

/-- Everything an instruction can do: an instruction that answers a next state has one of the effects of
`Effect`. -/
theorem execWith_effect {c : Config} {i : Instr} {s t : State} (h : execWith c i s = .next t) :
    Effect c s t := by
  cases i with
  | frame k d => exact effect_giveValue h
  | hxx sp u => exact effect_commandMeaning h
  | hpo sp u => exact effect_commandMeaning h
  | hst sp u => exact effect_commandMeaning h
  | hrt sp u => exact effect_commandMeaning h
  | hof sp u => exact effect_commandMeaning h
  | hon sp u => exact effect_commandMeaning h
  | hcm sp u => exact effect_commandMeaning h
  | hre sp u => exact effect_commandMeaning h
  | hbv sp u => exact effect_commandMeaning h
  | hgt sp u => exact effect_commandMeaning h
  | hgv sp u => exact effect_commandMeaning h
  | hgc sp u => exact effect_commandMeaning h
  | hgs sp u => exact effect_commandMeaning h
  | hsc sp u => exact effect_commandMeaning h
  | hrc sp u => exact effect_commandMeaning h
  | rxStartStx =>
    exact effect_rxTransition (act := fun t => { keep c 0x02 t with rxState := .awaitingEnd }) h
      (fun h1 h2 => .stx s.env.source h1 h2)
  | rxStartEtx => exact effect_rxTransition h (fun h1 h2 => effect_preamble s.env.source h1 h2)
  | rxStartCr => exact effect_rxTransition h (fun h1 h2 => effect_preamble s.env.source h1 h2)
  | rxStartOther b => exact effect_rxTransition h (fun h1 h2 => effect_preamble s.env.source h1 h2)
  | rxEndStx => exact effect_rxTransition h (fun h1 h2 => .stay s.env.source _ h1 (by simp [h2]))
  | rxEndEtx =>
    exact effect_rxTransition (act := fun t => { keep c 0x03 t with rxState := .awaitingTerminator }) h
      (fun h1 h2 => .etx s.env.source h1 h2)
  | rxEndCr => exact effect_rxTransition h (fun h1 h2 => .stay s.env.source _ h1 (by simp [h2]))
  | rxEndOther b => exact effect_rxTransition h (fun h1 h2 => .stay s.env.source _ h1 (by simp [h2]))
  | rxTermCr =>
    exact effect_rxTransition (act := fun t => frameComplete (keep c 0x0D t)) h
      (fun h1 h2 => .cr s.env.source h1 h2)
  | rxTermStx => exact effect_rxTransition h (fun h1 h2 => .stay s.env.source _ h1 (by simp [h2]))
  | rxTermEtx => exact effect_rxTransition h (fun h1 h2 => .stay s.env.source _ h1 (by simp [h2]))
  | rxTermOther b => exact effect_rxTransition h (fun h1 h2 => .stay s.env.source _ h1 (by simp [h2]))
  | encode k p =>
    simp only [execWith, execEncode] at h
    split at h
    · exact effect_giveValue h
    · obtain rfl := Host.Outcome.next.inj h
      exact .quiet _ (by simp) (by simp)
  | send =>
    rcases transmitByte_eq_next h with ⟨-, rfl⟩ | ⟨hs, b, hb, hc, rfl⟩
    · exact effect_unchanged c s
    · exact .send b hs hb hc
  | readframe =>
    simp only [execWith, execReadframe] at h
    split at h
    · rename_i b rest hs hsrc
      obtain rfl := Host.Outcome.next.inj h
      exact effect_recognize rest hs
    · obtain rfl := Host.Outcome.next.inj h
      exact effect_unchanged c s
  | decode arg =>
    cases arg with
    | received =>
      simp only [execWith, execDecode] at h
      split at h
      · split at h
        · cases h
        · exact effect_giveValue h
      · obtain rfl := Host.Outcome.next.inj h
        exact effect_unchanged c s
    | bytes f => exact effect_giveValue h
  | classify =>
    rcases classifyFrame_eq_next h with ⟨-, rfl⟩ | ⟨hs, f, hf, rfl⟩
    · exact effect_unchanged c s
    · exact .classify f hs hf
  | exchange k p => exact effect_exchangeStart h
  | deadline =>
    rw [execWith, execDeadline, deadlineExpired_eq] at h
    obtain rfl := Host.Outcome.next.inj h
    split
    · exact .deadline ‹_›
    · exact effect_unchanged c s
  | reset =>
    obtain rfl := Host.Outcome.next.inj h
    exact .reset
  | _ => exact effect_giveValue h

/-- Everything a step can do: what the environment's move and the event taken leave, with one of the effects
of an instruction on it. -/
theorem stepWith_effect {c : Config} {s t : State} (h : stepWith c s = .next t) :
    (selectEvent s.arrive = none ∧ t = s.arrive.withOutput none) ∨
    (∃ x, selectEvent s.arrive = some x ∧ Effect c (s.arrive.take x) t) := by
  unfold stepWith at h
  split at h
  · rename_i hx
    exact .inl ⟨hx, by simpa [unchanged] using h.symm⟩
  · rename_i x hx
    refine .inr ⟨x, hx, ?_⟩
    split at h
    · exact execWith_effect h
    · exact effect_giveValue h

end Sys2Proof.Machine
end

