-- ==== Sys2Proof/Laws/HostSide.lean ====
section
/-! SUPPORT. What the host's operations and the host's view can do: the rounding of raw words, the widths of
the lengths, how an operation ends. -/

namespace Sys2Proof.Machine

/-- `ROUND` fixes the integers of the raw range, whatever the parameter is (R307). -/
theorem hostRound_natCast (c : Config) {n : Nat} (h : n ≤ 65535) : hostRound c (n : ℚ) = n := by
  unfold hostRound
  rw [if_pos ⟨Rat.den_natCast n, by simp, by simpa using h⟩]
  simp

/-- The raw word of a raw word's number is that word (R307). -/
@[simp] theorem roundToWord_toNat (c : Config) (raw : Word) : roundToWord c (raw.toNat : ℚ) = raw := by
  have h : raw.toNat ≤ 65535 := by have := raw.isLt; omega
  rw [roundToWord, hostRound_natCast c h]
  simp

/-- The lengths fit their width when they are at most `RX_CAP` (R44). -/
theorem toNat_ofNat_lengthWidth {c : Config} {n : Nat} (h : n ≤ c.rxCap) :
    (BitVec.ofNat (lengthWidth c) n).toNat = n := by
  rw [BitVec.toNat_ofNat]
  exact Nat.mod_eq_of_lt (lt_of_le_of_lt h Nat.lt_log2_self)

/-- What becomes of an operation whose exchange ended in Success: it goes on when the answer is the one asked
for, and fails otherwise (R304, R313; log entry 15). -/
theorem hostResume_success {c : Config} {ph : HostPhase} {r : Result} (h : r.kind = .success) :
    hostResume c ph r =
      if r.cmd = lowerCmd (sentCode c ph) ∧ wordsNeeded c ph ≤ r.nwords then hostContinue c ph r.words
      else .fail .wrongAnswer := by
  simp [hostResume, h]

end Sys2Proof.Machine
end

