-- ==== Sys2Proof/Laws/PerInstr.lean ====
section
/-! SUPPORT. The family of statements made per instruction: the code of an instruction is in the format
that its row of spec/opcode_table.json names. -/

namespace Sys2Proof.Laws.EncodingFormat

/-- The six formats of the opcode table. -/
inductive Format where
  | frame
  | cmd24
  | byte8
  | hexdigit8
  | errcode16
  | op
deriving DecidableEq, Repr

/-- The format a code is in. -/
def ofCode : Code → Format
  | .frameCode _ => .frame
  | .cmd24 _ _ => .cmd24
  | .byte8 _ _ => .byte8
  | .hexdigit8 _ => .hexdigit8
  | .errcode16 _ => .errcode16
  | .resetEvent => .op
  | .deadlineEvent => .op
  | .txReadyEvent => .op
  | .tauEvent => .op
  | .encodeCall _ _ => .op
  | .readframeCall => .op
  | .decodeCall _ => .op

/-- The "format" entry of the instruction's row. EXCHANGE's row is an operation; the request that starts
one carries its three CMD bytes (log entry 8). -/
def ofRow : Instr → Format
  | .frame _ _ => .frame
  | .hxx _ _ => .cmd24
  | .hpo _ _ => .cmd24
  | .hst _ _ => .cmd24
  | .hrt _ _ => .cmd24
  | .hof _ _ => .cmd24
  | .hon _ _ => .cmd24
  | .hcm _ _ => .cmd24
  | .hre _ _ => .cmd24
  | .hbv _ _ => .cmd24
  | .hgt _ _ => .cmd24
  | .hgv _ _ => .cmd24
  | .hgc _ _ => .cmd24
  | .hgs _ _ => .cmd24
  | .hsc _ _ => .cmd24
  | .hrc _ _ => .cmd24
  | .rxStartStx => .byte8
  | .rxStartEtx => .byte8
  | .rxStartCr => .byte8
  | .rxStartOther _ => .byte8
  | .rxEndStx => .byte8
  | .rxEndEtx => .byte8
  | .rxEndCr => .byte8
  | .rxEndOther _ => .byte8
  | .rxTermCr => .byte8
  | .rxTermStx => .byte8
  | .rxTermEtx => .byte8
  | .rxTermOther _ => .byte8
  | .hex0 => .hexdigit8
  | .hex1 => .hexdigit8
  | .hex2 => .hexdigit8
  | .hex3 => .hexdigit8
  | .hex4 => .hexdigit8
  | .hex5 => .hexdigit8
  | .hex6 => .hexdigit8
  | .hex7 => .hexdigit8
  | .hex8 => .hexdigit8
  | .hex9 => .hexdigit8
  | .hexA => .hexdigit8
  | .hexB => .hexdigit8
  | .hexC => .hexdigit8
  | .hexD => .hexdigit8
  | .hexE => .hexdigit8
  | .hexF => .hexdigit8
  | .hexLowA => .hexdigit8
  | .hexLowB => .hexdigit8
  | .hexLowC => .hexdigit8
  | .hexLowD => .hexdigit8
  | .hexLowE => .hexdigit8
  | .hexLowF => .hexdigit8
  | .hexNone _ => .hexdigit8
  | .err1 => .errcode16
  | .err2 => .errcode16
  | .err3 => .errcode16
  | .err4 => .errcode16
  | .err5 => .errcode16
  | .err6 => .errcode16
  | .err7 => .errcode16
  | .errUnmapped _ => .errcode16
  | .encode _ _ => .op
  | .send => .op
  | .readframe => .op
  | .decode _ => .op
  | .classify => .op
  | .exchange _ _ => .cmd24
  | .deadline => .op
  | .reset => .op

/-- The code of the instruction is in the format of its row. -/
def Statement (i : Instr) : Prop := ofCode (encode i) = ofRow i

theorem frame (cmd : Cmd) (data : List Byte) : Statement (.frame cmd data) := rfl
theorem hxx (sp : Spelling) (u : CmdUse) : Statement (.hxx sp u) := rfl
theorem hpo (sp : Spelling) (u : CmdUse) : Statement (.hpo sp u) := rfl
theorem hst (sp : Spelling) (u : CmdUse) : Statement (.hst sp u) := rfl
theorem hrt (sp : Spelling) (u : CmdUse) : Statement (.hrt sp u) := rfl
theorem hof (sp : Spelling) (u : CmdUse) : Statement (.hof sp u) := rfl
theorem hon (sp : Spelling) (u : CmdUse) : Statement (.hon sp u) := rfl
theorem hcm (sp : Spelling) (u : CmdUse) : Statement (.hcm sp u) := rfl
theorem hre (sp : Spelling) (u : CmdUse) : Statement (.hre sp u) := rfl
theorem hbv (sp : Spelling) (u : CmdUse) : Statement (.hbv sp u) := rfl
theorem hgt (sp : Spelling) (u : CmdUse) : Statement (.hgt sp u) := rfl
theorem hgv (sp : Spelling) (u : CmdUse) : Statement (.hgv sp u) := rfl
theorem hgc (sp : Spelling) (u : CmdUse) : Statement (.hgc sp u) := rfl
theorem hgs (sp : Spelling) (u : CmdUse) : Statement (.hgs sp u) := rfl
theorem hsc (sp : Spelling) (u : CmdUse) : Statement (.hsc sp u) := rfl
theorem hrc (sp : Spelling) (u : CmdUse) : Statement (.hrc sp u) := rfl
theorem rxStartStx : Statement (.rxStartStx) := rfl
theorem rxStartEtx : Statement (.rxStartEtx) := rfl
theorem rxStartCr : Statement (.rxStartCr) := rfl
theorem rxStartOther (b : Byte) : Statement (.rxStartOther b) := rfl
theorem rxEndStx : Statement (.rxEndStx) := rfl
theorem rxEndEtx : Statement (.rxEndEtx) := rfl
theorem rxEndCr : Statement (.rxEndCr) := rfl
theorem rxEndOther (b : Byte) : Statement (.rxEndOther b) := rfl
theorem rxTermCr : Statement (.rxTermCr) := rfl
theorem rxTermStx : Statement (.rxTermStx) := rfl
theorem rxTermEtx : Statement (.rxTermEtx) := rfl
theorem rxTermOther (b : Byte) : Statement (.rxTermOther b) := rfl
theorem hex0 : Statement (.hex0) := rfl
theorem hex1 : Statement (.hex1) := rfl
theorem hex2 : Statement (.hex2) := rfl
theorem hex3 : Statement (.hex3) := rfl
theorem hex4 : Statement (.hex4) := rfl
theorem hex5 : Statement (.hex5) := rfl
theorem hex6 : Statement (.hex6) := rfl
theorem hex7 : Statement (.hex7) := rfl
theorem hex8 : Statement (.hex8) := rfl
theorem hex9 : Statement (.hex9) := rfl
theorem hexA : Statement (.hexA) := rfl
theorem hexB : Statement (.hexB) := rfl
theorem hexC : Statement (.hexC) := rfl
theorem hexD : Statement (.hexD) := rfl
theorem hexE : Statement (.hexE) := rfl
theorem hexF : Statement (.hexF) := rfl
theorem hexLowA : Statement (.hexLowA) := rfl
theorem hexLowB : Statement (.hexLowB) := rfl
theorem hexLowC : Statement (.hexLowC) := rfl
theorem hexLowD : Statement (.hexLowD) := rfl
theorem hexLowE : Statement (.hexLowE) := rfl
theorem hexLowF : Statement (.hexLowF) := rfl
theorem hexNone (b : Byte) : Statement (.hexNone b) := rfl
theorem err1 : Statement (.err1) := rfl
theorem err2 : Statement (.err2) := rfl
theorem err3 : Statement (.err3) := rfl
theorem err4 : Statement (.err4) := rfl
theorem err5 : Statement (.err5) := rfl
theorem err6 : Statement (.err6) := rfl
theorem err7 : Statement (.err7) := rfl
theorem errUnmapped (e : Word) : Statement (.errUnmapped e) := rfl
theorem encode (cmd : Cmd) (p : Payload) : Statement (.encode cmd p) := rfl
theorem send : Statement (.send) := rfl
theorem readframe : Statement (.readframe) := rfl
theorem decode (arg : DecodeArg) : Statement (.decode arg) := rfl
theorem classify : Statement (.classify) := rfl
theorem exchange (cmd : Cmd) (p : Payload) : Statement (.exchange cmd p) := rfl
theorem deadline : Statement (.deadline) := rfl
theorem reset : Statement (.reset) := rfl

end Sys2Proof.Laws.EncodingFormat
end

