-- ==== Sys2Proof/Laws/Safety.lean ====
section
/-! SUPPORT. The buffers' part of the invariant: what keeps a buffer in form and in range. -/

namespace Sys2Proof.Machine

/-- Writing the next byte of a buffer that is not full. -/
theorem bufferOk_write {cap n : Nat} {m : Memory} {b : Byte} (h : bufferOk cap m n) (hn : n < cap) :
    bufferOk cap (Memory.write m n b) (n + 1) := by
  refine ⟨Memory.write_wf _ _ h.1, fun x hx => ?_, fun i hi => ?_⟩
  · rcases Memory.mem_write hx with h' | h'
    · rw [h']
      exact hn
    · exact h.2.1 x h'
  · by_cases hin : i = n
    · subst hin
      simp
    · rw [Memory.read_write_other _ _ hin]
      exact h.2.2 i (by omega)

/-- Writing a sequence that fits keeps a buffer in form and in range. -/
theorem writeRange_range {cap : Nat} : ∀ {bs : List Byte} {m : Memory} {a : Nat}, m.wf →
    (∀ x ∈ m, x.1 < cap) → a + bs.length ≤ cap →
      (Memory.writeRange m a bs).wf ∧ ∀ x ∈ Memory.writeRange m a bs, x.1 < cap
  | [], _, _, h1, h2, _ => ⟨h1, h2⟩
  | b :: bs, m, a, h1, h2, h => by
    simp only [List.length_cons] at h
    refine writeRange_range (m := Memory.write m a b) (a := a + 1) (Memory.write_wf _ _ h1)
      (fun x hx => ?_) (by omega)
    rcases Memory.mem_write hx with h' | h'
    · rw [h']
      show a < cap
      omega
    · exact h2 x h'

end Sys2Proof.Machine
end

