-- ==== Sys2Proof/Tests/Slice0.lean ====
section
/-! SUPPORT. The model's own tests: ill-formed terms that WellFormed refuses, words written out from the
spec's tables, single steps with the values of spec/95_test_vectors.md and of the rules' own examples, and
for every statement with hypotheses a state and operands that meet them. -/

namespace Sys2Proof.Machine

/-! ## WellFormed refuses -/

theorem test_wf_refuses_stx_as_other : (Instr.rxStartOther 0x02).wf = false := by decide
theorem test_wf_refuses_etx_as_other : (Instr.rxEndOther 0x03).wf = false := by decide
theorem test_wf_refuses_cr_as_other : (Instr.rxTermOther 0x0D).wf = false := by decide
theorem test_wf_refuses_digit_as_none : (Instr.hexNone 0x61).wf = false := by decide
theorem test_wf_refuses_mapped_as_unmapped : (Instr.errUnmapped 2).wf = false := by decide
theorem test_wf_refuses_command_as_exchange :
    (Instr.exchange ⟨0x48, 0x67, 0x56⟩ (.raw [])).wf = false := by decide
/-- With `RX_HEX_ACCEPT_LOWER` false no lowercase letter is a digit (R100). -/
theorem test_wf_refuses_lowercase :
    ∀ i ∈ [Instr.hexLowA, .hexLowB, .hexLowC, .hexLowD, .hexLowE, .hexLowF],
      i.wf { Config.spec with rxHexAcceptLower := false } = false := by decide
/-- A catalog size that is no multiple of 4 is refused (R66). -/
theorem test_wf_refuses_catalog_size :
    Config.wf { Config.spec with catalog := [⟨sentinel, 4⟩, ⟨⟨0x68, 0x67, 0x76⟩, 6⟩] } = false := by decide

/-! ## Words written out from the tables -/

/-- The 15 rows of R106, each in uppercase in a request. -/
theorem test_decode_cmd24 :
    ∀ x ∈ [((0x485858 : BitVec 24), Instr.hxx), (0x48504F, .hpo), (0x485354, .hst), (0x485254, .hrt),
        (0x484F46, .hof), (0x484F4E, .hon), (0x48434D, .hcm), (0x485245, .hre), (0x484256, .hbv),
        (0x484754, .hgt), (0x484756, .hgv), (0x484743, .hgc), (0x484753, .hgs), (0x485343, .hsc),
        (0x485243, .hrc)],
      decode (.cmd24 x.1 (.request (.raw []))) =
        .ok (x.2 ⟨false, false, false⟩ (.request (.raw []))) := by decide

/-- The same codes in lowercase before the dispatcher. -/
theorem test_decode_cmd24_lowercase :
    ∀ x ∈ [((0x687878 : BitVec 24), Instr.hxx), (0x68706F, .hpo), (0x687374, .hst), (0x687274, .hrt),
        (0x686F66, .hof), (0x686F6E, .hon), (0x68636D, .hcm), (0x687265, .hre), (0x686276, .hbv),
        (0x686774, .hgt), (0x686776, .hgv), (0x686763, .hgc), (0x686773, .hgs), (0x687363, .hsc),
        (0x687263, .hrc)],
      decode (.cmd24 x.1 .dispatch) = .ok (x.2 ⟨true, true, true⟩ .dispatch) := by decide

/-- The twelve rows of R164. -/
theorem test_decode_byte8 :
    ∀ x ∈ [(RxState.awaitingStart, (0x02 : Byte), Instr.rxStartStx), (.awaitingStart, 0x03, .rxStartEtx),
        (.awaitingStart, 0x0D, .rxStartCr), (.awaitingStart, 0x41, .rxStartOther 0x41),
        (.awaitingEnd, 0x02, .rxEndStx), (.awaitingEnd, 0x03, .rxEndEtx), (.awaitingEnd, 0x0D, .rxEndCr),
        (.awaitingEnd, 0x83, .rxEndOther 0x83), (.awaitingTerminator, 0x0D, .rxTermCr),
        (.awaitingTerminator, 0x02, .rxTermStx), (.awaitingTerminator, 0x03, .rxTermEtx),
        (.awaitingTerminator, 0x8D, .rxTermOther 0x8D)],
      decode (.byte8 x.1 x.2.1) = .ok x.2.2 := by decide

/-- The characters of R96 and R100. -/
theorem test_decode_hexdigit8 :
    ∀ x ∈ [((0x30 : Byte), Instr.hex0), (0x31, .hex1), (0x32, .hex2), (0x33, .hex3), (0x34, .hex4),
        (0x35, .hex5), (0x36, .hex6), (0x37, .hex7), (0x38, .hex8), (0x39, .hex9), (0x41, .hexA),
        (0x42, .hexB), (0x43, .hexC), (0x44, .hexD), (0x45, .hexE), (0x46, .hexF), (0x61, .hexLowA),
        (0x62, .hexLowB), (0x63, .hexLowC), (0x64, .hexLowD), (0x65, .hexLowE), (0x66, .hexLowF),
        (0x2F, .hexNone 0x2F), (0x3A, .hexNone 0x3A), (0x47, .hexNone 0x47), (0x67, .hexNone 0x67)],
      decode (.hexdigit8 x.1) = .ok x.2 := by decide

/-- The codes of R241 to R247 and R249. -/
theorem test_decode_errcode16 :
    ∀ x ∈ [((0x0001 : Word), Instr.err1), (0x0002, .err2), (0x0003, .err3), (0x0004, .err4),
        (0x0005, .err5), (0x0006, .err6), (0x0007, .err7), (0x0000, .errUnmapped 0),
        (0x0008, .errUnmapped 8), (0xFFFF, .errUnmapped 0xFFFF)],
      decode (.errcode16 x.1) = .ok x.2 := by decide

/-- The frame "HGV -" of R139. -/
theorem test_decode_frame :
    decode (.frameCode [0x02, 0x48, 0x47, 0x56, 0x03, 0x45, 0x41, 0x0D]) =
      .ok (.frame ⟨0x48, 0x47, 0x56⟩ []) := by decide

/-- A frame with another checksum character is rejected by name (R95). -/
theorem test_decode_frame_bad_checksum :
    decode (.frameCode [0x02, 0x48, 0x47, 0x56, 0x03, 0x45, 0x42, 0x0D]) =
      .error .frameBadChecksum := by decide

/-- The operations, as the events and calls that present them (R280). -/
theorem test_decode_operations :
    decode .txReadyEvent = .ok .send ∧ decode .tauEvent = .ok .classify ∧
    decode .deadlineEvent = .ok .deadline ∧ decode .resetEvent = .ok .reset ∧
    decode .readframeCall = .ok .readframe ∧ decode (.decodeCall .received) = .ok (.decode .received) ∧
    decode (.encodeCall ⟨0x48, 0x47, 0x56⟩ (.raw [])) = .ok (.encode ⟨0x48, 0x47, 0x56⟩ (.raw [])) ∧
    decode (.cmd24 0x415A5A (.request (.word 1))) = .ok (.exchange ⟨0x41, 0x5A, 0x5A⟩ (.word 1)) := by
  decide

theorem test_table_word_cmd : decodeTableWord 24 0x485858 =
    some (.hxx ⟨false, false, false⟩ (.request (.raw []))) := by decide
theorem test_table_word_digit : decodeTableWord 8 0x41 = some .hexA := by decide
theorem test_table_word_byte : decodeTableWord 8 0x03 = some .rxStartEtx := by decide
theorem test_table_word_error : decodeTableWord 16 0x0007 = some .err7 := by decide

/-! ## States for the tests -/

/-- Whether an outcome is a next state with a property. -/
def nextIs (o : Host.Outcome State Fault Refusal) (p : State → Bool) : Bool :=
  match o with
  | .next t => p t
  | .fault _ => false
  | .refused _ => false

/-- The reset state with bytes waiting in the source. -/
def tIdle (src : List Byte) : State := { State.reset with env := { Env.quiet with source := src } }

/-- Sent, with a frame in the transmit buffer and the next index. -/
def tSent (f : List Byte) (i : Nat) : State :=
  { State.reset with
    seqState := .sent, txBuf := Memory.writeRange [] 0 f, txLen := f.length, txIdx := i, lastCmd := cmdField f }

/-- AwaitingFrame, with the recognizer's state, the bytes kept and the bytes waiting. -/
def tAwait (st : RxState) (kept src : List Byte) : State :=
  { tIdle src with
    seqState := .awaitingFrame, rxState := st, rxBuf := Memory.writeRange [] 0 kept, rxLen := kept.length }

/-- Decoded, with a received frame and the code sent. -/
def tDecoded (f : List Byte) (k : Cmd) : State :=
  { State.reset with
    seqState := .decoded, rxBuf := Memory.writeRange [] 0 f, rxLen := f.length, lastCmd := k }

def tHGV : Cmd := ⟨0x48, 0x47, 0x56⟩
/-- The request "HGV -" (R139). -/
def tReq : List Byte := [0x02, 0x48, 0x47, 0x56, 0x03, 0x45, 0x41, 0x0D]
/-- The response hgv 7A12 (R223). -/
def tResp : List Byte := [0x02, 0x68, 0x67, 0x76, 0x37, 0x41, 0x31, 0x32, 0x03, 0x32, 0x35, 0x0D]

/-! ## Single steps -/

/-- R283: `Req("HGV", Raw([]))` in the reset state. -/
theorem test_exchange_start :
    nextIs (exec (.hgv ⟨false, false, false⟩ (.request (.raw []))) State.reset) (fun t =>
      decide (Memory.readRange t.txBuf 0 8 = some tReq ∧ t.txLen = 8 ∧ t.lastCmd = tHGV ∧
        t.seqState = .sent)) = true := by decide

/-- R139: HBV [0x7A12] and HCM raw"1". -/
theorem test_encode :
    nextIs (exec (.encode ⟨0x48, 0x42, 0x56⟩ (.word 0x7A12)) State.reset) (fun t =>
      decide (t.env.output = some (.returned (.bytes
        [0x02, 0x48, 0x42, 0x56, 0x37, 0x41, 0x31, 0x32, 0x03, 0x43, 0x30, 0x0D])))) = true ∧
    nextIs (exec (.encode ⟨0x48, 0x43, 0x4D⟩ (.raw [0x31])) State.reset) (fun t =>
      decide (t.env.output = some (.returned (.bytes
        [0x02, 0x48, 0x43, 0x4D, 0x31, 0x03, 0x30, 0x45, 0x0D])))) = true := by decide

/-- The last byte of the request, then AwaitingFrame (R137, R283). -/
theorem test_send_last :
    nextIs (exec .send (tSent tReq 7)) (fun t =>
      decide (t.env.output = some (.tx 0x0D) ∧ t.seqState = .awaitingFrame ∧ t.txIdx = 8)) = true := by decide
/-- The last byte but one leaves the block in Sent (C10). -/
theorem test_send_not_last :
    nextIs (exec .send (tSent tReq 6)) (fun t =>
      decide (t.env.output = some (.tx 0x41) ∧ t.seqState = .sent)) = true := by decide

/-- R152's example. -/
theorem test_rx_start_stx :
    nextIs (exec .rxStartStx (tAwait .awaitingStart [] [])) (fun t =>
      decide (Memory.read t.rxBuf 0 = some 0x02 ∧ t.rxLen = 1 ∧ t.rxState = .awaitingEnd)) = true := by decide
/-- R157's example. -/
theorem test_rx_end_etx :
    nextIs (exec .rxEndEtx (tAwait .awaitingEnd [0x02, 0x68, 0x67, 0x76, 0x37, 0x41, 0x31, 0x32] []))
      (fun t => decide (Memory.read t.rxBuf 8 = some 0x03 ∧ t.rxState = .awaitingTerminator)) = true := by decide
/-- R160's example, through READFRAME; the byte after the CR stays in the source. -/
theorem test_rx_term_cr :
    nextIs (exec .readframe (tAwait .awaitingTerminator [0x02, 0x68, 0x6F, 0x6E, 0x03, 0x34, 0x41]
      [0x0D, 0x0A])) (fun t =>
        decide (t.rxLen = 8 ∧ t.seqState = .decoded ∧ t.env.source = [0x0A])) = true := by decide
/-- A kept byte that finds the buffer full (R151). -/
theorem test_rx_overflow :
    nextIs (exec (.rxEndOther 0x41) (tAwait .awaitingEnd (List.replicate 32 0x30) [])) (fun t =>
      decide (t.rxLen = 32 ∧ t.rxOvf = true ∧ Memory.read t.rxBuf 31 = some 0x30)) = true := by decide
/-- Noise before the frame is dropped (R166 a). -/
theorem test_rx_preamble :
    nextIs (exec (.rxStartOther 0xFF) (tAwait .awaitingStart [] [])) (fun t =>
      decide (t.rxLen = 0 ∧ t.rxState = .awaitingStart)) = true := by decide

/-- R196, R193, R195, R187, R188, R190: the rules' own examples. -/
theorem test_decode_examples :
    (decodeFrame Config.spec tResp false).result = .ok ⟨0x68, 0x67, 0x76⟩ [0x7A12] ∧
    (decodeFrame Config.spec [0x02, 0x68, 0x6F, 0x6E, 0x03, 0x34, 0x42, 0x0D] false).result =
      .frameError .checksumMismatch ∧
    (decodeFrame Config.spec [0x02, 0x68, 0x6F, 0x6E, 0x03, 0x34, 0x61, 0x0D] false).result =
      .frameError .checksumMismatch ∧
    (decodeFrame { Config.spec with chkCaseStrict := false }
      [0x02, 0x68, 0x6F, 0x6E, 0x03, 0x34, 0x61, 0x0D] false).result = .ok ⟨0x68, 0x6F, 0x6E⟩ [] := by decide
theorem test_decode_failures :
    (decodeFrame Config.spec [0x02, 0x68, 0x67, 0x76, 0x31, 0x32, 0x47, 0x34, 0x03, 0x32, 0x38, 0x0D]
      false).result = .frameError .badHexDigit ∧
    (decodeFrame Config.spec [0x02, 0x68, 0x6F, 0x6E, 0x03, 0x34, 0x41, 0x41, 0x0D] false).result =
      .frameError .badEtx ∧
    (decodeFrame Config.spec [0x02, 0x68, 0x7A, 0x7A, 0x03, 0x36, 0x31, 0x0D] false).result =
      .frameError .unknownCommand ∧
    (decodeFrame Config.spec [0x02, 0x68, 0x67, 0x76, 0x03, 0x34, 0x41, 0x0D] false).result =
      .frameError .lengthMismatch ∧
    (decodeFrame Config.spec [0x41, 0x68, 0x6F, 0x6E, 0x03, 0x34, 0x41, 0x0D] false).result =
      .frameError .badStart ∧
    (decodeFrame Config.spec [0x02, 0x68, 0x6F, 0x6E, 0x03, 0x34, 0x41, 0x0A] false).result =
      .frameError .badTerminator := by decide

/-- The end state of R283. -/
theorem test_classify_success :
    nextIs (exec .classify (tDecoded tResp tHGV)) (fun t =>
      decide (t.res = { Result.zero with
          kind := .success, cmd := ⟨0x68, 0x67, 0x76⟩, nwords := 1, words := ⟨0x7A12, 0, 0, 0, 0, 0⟩,
          expLen := 12, actLen := 12, chkCalc := ⟨0x32, 0x35⟩, chkRecv := ⟨0x32, 0x35⟩ } ∧
        t.seqState = .idle ∧ t.resValid = true ∧ t.env.output = some .done)) = true := by decide
/-- R251. -/
theorem test_classify_device_error :
    nextIs (exec .classify (tDecoded
      [0x02, 0x68, 0x78, 0x78, 0x30, 0x30, 0x30, 0x32, 0x03, 0x31, 0x46, 0x0D] ⟨0x48, 0x4F, 0x4E⟩))
      (fun t => decide (t.res.kind = .deviceError ∧ t.res.errcode = 2 ∧ t.res.msg = 2 ∧ t.res.nwords = 1 ∧
        errMsg Config.spec t.res.errcode = some "Timeout Error")) = true := by decide
/-- R272's example: the echo of another command. -/
theorem test_classify_echo :
    nextIs (exec .classify (tDecoded
      [0x02, 0x68, 0x67, 0x63, 0x30, 0x30, 0x43, 0x38, 0x03, 0x31, 0x32, 0x0D] tHGV)) (fun t =>
      decide (t.res.kind = .frameError ∧ t.res.cause = .echoMismatch ∧ t.res.cmd = ⟨0x68, 0x67, 0x63⟩ ∧
        t.res.nwords = 0)) = true := by decide

/-- R277: the bytes kept so far, and Idle. -/
theorem test_deadline :
    nextIs (exec .deadline (tAwait .awaitingEnd [0x02, 0x68, 0x67] [0x76])) (fun t =>
      decide (t.res.kind = .timeout ∧ t.res.actLen = 3 ∧ t.rxState = .awaitingStart ∧
        t.seqState = .idle ∧ t.env.source = [0x76])) = true := by decide
/-- R381: `Reset` does not empty the source. -/
theorem test_reset :
    nextIs (exec .reset (tAwait .awaitingEnd [0x02] [0x68])) (fun t =>
      decide (t = tIdle [0x68])) = true := by decide

/-- R356: `Deadline` over the byte that arrives with it; the byte stays in the source. -/
theorem test_step_priority :
    nextIs (step { tAwait .awaitingTerminator [0x02, 0x03] [] with
      env := { Env.quiet with script := [{ rx := [0x0D], deadlineStrobe := true }] } }) (fun t =>
        decide (t.res.kind = .timeout ∧ t.env.source = [0x0D])) = true := by decide
/-- The presented word runs as the next step. -/
theorem test_with_fetch_word :
    nextIs (step (State.reset.withFetchWord 24 0x484756)) (fun t =>
      decide (t.seqState = .sent ∧ t.lastCmd = tHGV)) = true ∧
    nextIs (step (State.reset.withFetchWord 8 0x02)) (fun t =>
      decide (t.rxState = .awaitingEnd ∧ t.rxLen = 1)) = true := by decide

/-! ## The host side -/

/-- R301, R302: the rules' own examples. -/
theorem test_conversion : toVoltage Config.spec.factors 0x7A12 = 56625 / 1000 ∧
    toCurrent Config.spec.factors 0x00C8 = 996 / 1000 := by
  have h1 : (0x7A12 : Word).toNat = 31250 := rfl
  have h2 : (0x00C8 : Word).toNat = 200 := rfl
  rw [toVoltage, toCurrent, h1, h2]
  norm_num [Config.spec, ConversionFactor.source]
/-- R311: bits 1 and 6 are different flags; R317: the word 2. -/
theorem test_status_and_power :
    decodeStatus 0x0042 = ⟨false, true, true, true, true, false⟩ ∧
    decodePower 2 = (.notInUse, .effectiveness) := by decide

/-- R44: the width of the lengths for `RX_CAP` = 32, and for 64, where 6 bits would not do. -/
theorem test_length_width :
    lengthWidth Config.spec = 6 ∧ lengthWidth { Config.spec with rxCap := 64 } = 7 := by decide

/-- R70: a partial frame is not decoded. -/
theorem test_decode_partial :
    nextIs (exec (.decode .received) (tAwait .awaitingEnd [0x02, 0x68, 0x67, 0x76, 0x37, 0x41, 0x31, 0x32] []))
      (fun t => decide (t.env.output = none)) = true := by decide

/-! ## Hypotheses that are met -/

/-- The largest DATA field, 24 bytes, and one byte more. -/
def tLong : Payload := .words [1, 2, 3, 4, 5, 6]
def tTooLong : Payload := .raw (List.replicate 25 0x30)

theorem witness_DecodeOfEncode :
    Config.spec.wf = true ∧ (Instr.rxStartOther 0x82).wf = true ∧ (Instr.hexNone 0x47).wf = true ∧
    Instr.hexLowF.wf = true ∧ (Instr.errUnmapped 8).wf = true ∧ (Instr.errUnmapped 0).wf = true ∧
    (Instr.exchange ⟨0xC8, 0x47, 0x56⟩ (.raw [])).wf = true := by decide
theorem witness_EncodeOfDecode :
    decode (.cmd24 0xC84756 (.request tLong)) = .ok (.exchange ⟨0xC8, 0x47, 0x56⟩ tLong) := by decide
theorem witness_KnownCommandFields : (0x484656 : BitVec 24) ∉ knownFields := by decide
theorem witness_HexConversionLaws :
    unhexWord Config.spec 0x66 0x46 0x30 0x39 = some 0xFF09 ∧
    unhexPair Config.spec ⟨0x39, 0x61⟩ = some 0x9A := by decide
theorem witness_ByteClasses : byteClass 0x04 = byteClass 0xFF := by decide
theorem witness_EncodeCompletes :
    (dataBytes tLong).length = 24 ∧ (dataBytes (.raw [])).length = 0 := by decide
theorem witness_PayloadForms : (1 : Nat) < ([0x0102, 0x0304] : List Word).length := by decide
theorem witness_PayloadTooLongRefused :
    Config.spec.txMaxData < (dataBytes tTooLong).length ∧ State.reset.seqState = .idle := by decide
theorem witness_EncodeDecodeRoundTrip :
    Config.spec.wf = true ∧ ⟨⟨0x68, 0x67, 0x76⟩, 4⟩ ∈ Config.spec.catalog ∧
    lowerCmd ⟨0x48, 0x67, 0x56⟩ = ⟨0x68, 0x67, 0x76⟩ ∧ ([0xFFFF] : List Word).length = 4 / 4 := by decide
theorem witness_DecodeCompletes :
    (tDecoded tResp tHGV).seqState = .decoded ∧ HoldsFrame 32 (tDecoded tResp tHGV) tResp ∧
    (tAwait .awaitingEnd [0x02] []).seqState ≠ .decoded := by
  unfold HoldsFrame; decide
/-- The boundary of the buffer: a frame of 32 bytes. -/
theorem witness_DecodeCompletes_full :
    HoldsFrame 32 (tDecoded (List.replicate 32 0x30) tHGV) (List.replicate 32 0x30) := by
  unfold HoldsFrame; decide
/-- A lowercase checksum, which only the comparison by value accepts. -/
theorem witness_FirstFailingCheckIsTheCause :
    Config.wf { Config.spec with chkCaseStrict := false } = true ∧
    (decodeFrame { Config.spec with chkCaseStrict := false }
      [0x02, 0x68, 0x6F, 0x6E, 0x03, 0x34, 0x61, 0x0D] false).result = .ok ⟨0x68, 0x6F, 0x6E⟩ [] := by decide
theorem witness_DecodeAcceptsExactly : Config.spec.wf = true ∧ Config.spec.chkCaseStrict = true := by decide
/-- For `DecodeContext`: each way DECODE ends is the end of some sequence. -/
theorem witness_DecodeContext :
    (decodeFrame Config.spec tResp true).result = .frameError .overflow ∧
    (decodeFrame Config.spec [0x02, 0x03, 0x0D] false).result = .frameError .tooShort ∧
    (decodeFrame Config.spec [0x02, 0x68, 0x6F, 0x6E, 0x30, 0x30, 0x30, 0x31, 0x03, 0x30, 0x42, 0x0D]
      false).result = .frameError .lengthMismatch ∧
    (decodeFrame Config.spec [0x02, 0x68, 0x6F, 0x6E, 0x03, 0x34, 0x41, 0x0D] false).result =
      .ok ⟨0x68, 0x6F, 0x6E⟩ [] := by decide
theorem witness_OverflowKeepsTheKind :
    Config.spec.wf = true ∧ Config.spec.rxCap < (List.replicate 33 (0x30 : Byte)).length := by decide
theorem witness_OneLengthPerCommand :
    catalogSize Config.spec (lowerCmd (cmdField tReq)) = some 4 ∧ tReq.length ≠ 8 + 4 ∧
    Config.spec.wf = true ∧ ⟨⟨0x68, 0x67, 0x76⟩, 4⟩ ∈ Config.spec.catalog := by decide
theorem witness_ChecksumComparison :
    Config.spec.chkCaseStrict = true ∧
    Config.chkCaseStrict { Config.spec with chkCaseStrict := false } = false := by decide
theorem witness_ExchangeStarts :
    State.reset.seqState = .idle ∧ (dataBytes tLong).length ≤ 24 := by decide
theorem witness_CommandRequestStartsExchange :
    (tIdle tResp).seqState = .idle ∧ (dataBytes (.word 0x7A12)).length ≤ 24 := by decide
theorem witness_RequestRefused :
    (tSent tReq 0).seqState ≠ .idle ∧ Config.spec.txMaxData < (dataBytes tTooLong).length ∧
    (dataBytes tLong).length ≤ Config.spec.txMaxData := by decide
theorem witness_SendStep :
    (tSent tReq 7).seqState = .sent ∧ (tSent tReq 7).txIdx < 32 ∧
    Memory.read (tSent tReq 7).txBuf (tSent tReq 7).txIdx = some 0x0D ∧
    (tIdle []).seqState ≠ .sent := by decide
theorem witness_WholeRequestIsSent :
    State.reset.seqState = .idle ∧ (dataBytes tLong).length ≤ Config.spec.txMaxData ∧
    ∃ t, execWith Config.spec (.exchange tHGV tLong) State.reset = .next t :=
  ⟨rfl, by decide, _, rfl⟩
/-- For `RowsThatAdvance`, `RowsThatStay` and `PreambleRows`: each state of the recognizer, the buffer empty
and full. -/
theorem witness_RecognizerRows :
    ∀ st ∈ [RxState.awaitingStart, .awaitingEnd, .awaitingTerminator],
      ∀ kept ∈ [[], List.replicate 32 (0x30 : Byte)],
        (tAwait st kept []).seqState = .awaitingFrame ∧ (tAwait st kept []).rxState = st := by decide
theorem witness_PreambleRows :
    Config.rxKeepPreamble { Config.spec with rxKeepPreamble := true } = true ∧
    (tAwait .awaitingStart [] []).rxState = .awaitingStart := by decide
theorem witness_ReadframeIsTheSelectedRow :
    (tAwait .awaitingEnd [0x02] [0x03, 0x0D]).seqState = .awaitingFrame ∧
    (tAwait .awaitingEnd [0x02] [0x03, 0x0D]).env.source = 0x03 :: [0x0D] := by decide
theorem witness_NotEnabledChangesNothing :
    State.reset.seqState ≠ .awaitingFrame ∧ State.reset.seqState ≠ .decoded ∧
    (tAwait .awaitingStart [] []).env.source = [] ∧
    (tAwait .awaitingEnd [] []).rxState ≠ .awaitingStart ∧
    (tAwait .awaitingStart [] []).rxState ≠ .awaitingEnd ∧
    (tAwait .awaitingStart [] []).rxState ≠ .awaitingTerminator := by decide
theorem witness_ReadframeDelivers :
    (tAwait .awaitingStart [] ([0xFF] ++ tReq ++ [0x0A])).seqState = .awaitingFrame ∧
    (tAwait .awaitingStart [] ([0xFF] ++ tReq ++ [0x0A])).rxLen = 0 ∧
    (tAwait .awaitingStart [] ([0xFF] ++ tReq ++ [0x0A])).rxOvf = false ∧
    (0x02 : Byte) ∉ ([0xFF] : List Byte) ∧ (0x03 : Byte) ∉ ([0x48, 0x47, 0x56] : List Byte) ∧
    (0x0D : Byte) ∉ ([0x45, 0x41] : List Byte) ∧
    (tAwait .awaitingStart [] ([0xFF] ++ tReq ++ [0x0A])).env.source =
      [0xFF] ++ [0x02] ++ [0x48, 0x47, 0x56] ++ [0x03] ++ [0x45, 0x41] ++ [0x0D] ++ [0x0A] := by decide
/-- A stream without a CR holds no frame. -/
theorem witness_ReadframeNeedsAFrame :
    ∀ P A B rest : List Byte,
      (tAwait .awaitingStart [] [0x02, 0x03]).env.source ≠
        P ++ [0x02] ++ A ++ [0x03] ++ B ++ [0x0D] ++ rest := by
  intro P A B rest h
  have hm : (0x0D : Byte) ∈ ([0x02, 0x03] : List Byte) := by
    rw [show ([0x02, 0x03] : List Byte) = P ++ [0x02] ++ A ++ [0x03] ++ B ++ [0x0D] ++ rest from h]
    simp
  revert hm; decide
theorem witness_ClassifySuccess :
    (tDecoded tResp tHGV).seqState = .decoded ∧
    (decodeFrame Config.spec tResp (tDecoded tResp tHGV).rxOvf).result = .ok ⟨0x68, 0x67, 0x76⟩ [0x7A12] ∧
    (⟨0x68, 0x67, 0x76⟩ : Cmd) ≠ ⟨0x68, 0x78, 0x78⟩ ∧
    (⟨0x68, 0x67, 0x76⟩ : Cmd) = lowerCmd (tDecoded tResp tHGV).lastCmd := by decide
/-- The frame of the unmapped error code 0 (R249). -/
def tErr0 : List Byte := [0x02, 0x68, 0x78, 0x78, 0x30, 0x30, 0x30, 0x30, 0x03, 0x31, 0x44, 0x0D]
theorem witness_ClassifyDeviceError :
    HoldsFrame 32 (tDecoded tErr0 tHGV) tErr0 ∧
    (decodeFrame Config.spec tErr0 false).result = .ok ⟨0x68, 0x78, 0x78⟩ [0] := by
  unfold HoldsFrame; decide
theorem witness_ClassifyFrameError :
    HoldsFrame 32 (tDecoded [0x02, 0x03, 0x0D] tHGV) [0x02, 0x03, 0x0D] ∧
    (decodeFrame Config.spec [0x02, 0x03, 0x0D] false).result = .frameError .tooShort := by
  unfold HoldsFrame; decide
theorem witness_EchoComparison :
    HoldsFrame Config.spec.rxCap (tDecoded tResp ⟨0x48, 0x47, 0x43⟩) tResp ∧
    (decodeFrame Config.spec tResp false).result = .ok ⟨0x68, 0x67, 0x76⟩ [0x7A12] ∧
    (⟨0x68, 0x67, 0x76⟩ : Cmd) ≠ lowerCmd ⟨0x48, 0x47, 0x43⟩ := by
  unfold HoldsFrame; decide
/-- For `DeviceErrorFrames`: the frame of code 7, at the end of the table. -/
theorem witness_DeviceErrorFrames :
    HoldsFrame 32
      (tDecoded [0x02, 0x68, 0x78, 0x78, 0x30, 0x30, 0x30, 0x37, 0x03, 0x32, 0x34, 0x0D] tHGV)
      [0x02, 0x68, 0x78, 0x78, 0x30, 0x30, 0x30, 0x37, 0x03, 0x32, 0x34, 0x0D] ∧
    (tDecoded [0x02] tHGV).rxOvf = false := by
  unfold HoldsFrame; decide
theorem witness_DeadlineStep :
    (tSent tReq 3).seqState = .sent ∧ (tAwait .awaitingEnd [0x02] []).seqState = .awaitingFrame ∧
    State.reset.seqState = .idle ∧ (tDecoded tResp tHGV).seqState = .decoded := by decide
theorem witness_HexDigitsComplete :
    Config.rxHexAcceptLower { Config.spec with rxHexAcceptLower := false } = false ∧
    ∀ b ∈ [(0x2F : Byte), 0x3A, 0x40, 0x47, 0x60, 0x67], hexVal Config.spec b = none := by decide
theorem witness_ErrorCodesComplete : (0 : Word).toNat = 0 ∧ 8 ≤ (8 : Word).toNat := by decide
/-- A state in which a byte is presented, and one in which nothing is. -/
theorem witness_StepRunsTheDecodedInstruction :
    selectEvent (tAwait .awaitingEnd [0x02] [0x03]).arrive = some (.byte8 .awaitingEnd 0x03) ∧
    decode (.byte8 .awaitingEnd 0x03) = .ok .rxEndEtx ∧ selectEvent State.reset.arrive = none := by decide
/-- For `EventPriority`: everything is presented at once, in AwaitingFrame with a byte waiting. -/
def tCrowd (r d : Bool) (s : State) : State :=
  { s with env := { Env.quiet with
    source := [0x0D], resetStrobe := r, deadlineStrobe := d, txReady := true, reqs := [⟨tHGV, .raw []⟩] } }
theorem witness_EventPriority :
    (tCrowd true true (tSent tReq 0)).arrive.env.resetStrobe = true ∧
    (tCrowd false true (tSent tReq 0)).arrive.env.deadlineStrobe = true ∧
    (tCrowd false false (tSent tReq 0)).arrive.env.txReady = true ∧
    (tCrowd false false (tAwait .awaitingEnd [] [])).arrive.env.source = 0x0D :: [] ∧
    (tCrowd false false (tDecoded tResp tHGV)).arrive.seqState = .decoded ∧
    (tCrowd false false State.reset).arrive.env.reqs = ⟨tHGV, .raw []⟩ :: [] ∧
    (tCrowd false false State.reset).arrive.seqState = .idle := by decide

/-- A state inside an exchange, with one byte kept and the whole request sent. -/
def tMiddle : State :=
  { tAwait .awaitingEnd [0x02] [0x03] with
    txBuf := Memory.writeRange [] 0 tReq, txLen := 8, txIdx := 8, lastCmd := tHGV }

/-- For the statements with the invariant: a state inside an exchange has it, and its step completes. -/
theorem witness_StepKeepsInvariant :
    Inv Config.spec tMiddle ∧ ∃ t, step tMiddle = .next t := by
  refine ⟨⟨?_, ?_, ?_, ?_, ?_, ?_⟩, _, rfl⟩
  · unfold CountersOk; decide
  · unfold BuffersOk bufferOk Memory.wf; decide
  · show tMiddle.txIdx = tMiddle.txLen; decide
  · unfold RecognizerIdle; decide
  · unfold ReceivedOk; decide
  · unfold ResultOk; decide

/-- For `DoneMeansAnOutcome`: the deadline in that state outputs `Done`. -/
theorem witness_DoneMeansAnOutcome :
    nextIs (step { tMiddle with env := { tMiddle.env with deadlineStrobe := true } })
      (fun t => decide (t.env.output = some .done)) = true := by decide
/-- For the statements about what a step does to the source, the sink, the sequencer and the results: steps
that take a byte, send one, start an exchange and end one all complete. -/
theorem witness_Steps :
    (∃ t, stepWith Config.spec tMiddle = .next t) ∧
    (∃ t, stepWith Config.spec (tCrowd false false (tSent tReq 7)) = .next t) ∧
    (∃ t, stepWith Config.spec (tCrowd false false State.reset) = .next t) ∧
    (∃ t, stepWith Config.spec (tDecoded tResp tHGV) = .next t) := ⟨⟨_, rfl⟩, ⟨_, rfl⟩, ⟨_, rfl⟩, ⟨_, rfl⟩⟩
theorem witness_NothingHappensWithoutARequest : (tCrowd false false State.reset).seqState = .idle := by decide
theorem witness_WholeExchangeDeliversTheWords :
    Config.spec.wf = true ∧ ⟨⟨0x68, 0x67, 0x76⟩, 4⟩ ∈ Config.spec.catalog ∧
    (⟨0x68, 0x67, 0x76⟩ : Cmd) ≠ ⟨0x68, 0x78, 0x78⟩ ∧ lowerCmd tHGV = ⟨0x68, 0x67, 0x76⟩ ∧
    (dataBytes (.raw [])).length ≤ Config.spec.txMaxData ∧ ([0x7A12] : List Word).length = 4 / 4 ∧
    (tIdle (tResp ++ [0x0A])).seqState = .idle ∧
    (tIdle (tResp ++ [0x0A])).env.source =
      frameBytes ⟨0x68, 0x67, 0x76⟩ (([0x7A12] : List Word).flatMap hexWord) ++ [0x0A] := by decide
/-- R30, R31, R37: the codes the host reads of an ECHO_MISMATCH. -/
theorem test_result_codes :
    let s := { State.reset with res := { Result.zero with kind := .frameError, cause := .echoMismatch } }
    (readResult s).resKind = 3 ∧ (readResult s).resCause = 10 := by decide
/-- For `HostViewIsExact`: a step in AwaitingFrame, with the invariant of `witness_StepKeepsInvariant`. -/
theorem witness_HostViewIsExact :
    tMiddle.seqState ≠ .decoded ∧ ∃ t, stepWith Config.spec tMiddle = .next t := ⟨by decide, _, rfl⟩
theorem witness_UnitConversionRoundTrip : FactorsInvertible Config.spec.factors := by
  norm_num [FactorsInvertible, Config.spec, ConversionFactor.source]
theorem witness_StatusFlagsRead :
    (0x00A1 : Word) &&& 0x005F = (0xFF01 : Word) &&& 0x005F ∧
    Result.kind { Result.zero with kind := .success, cmd := ⟨0x68, 0x67, 0x73⟩, nwords := 1 } = .success := by
  decide
theorem witness_PowerSettersPreserveTheOtherField :
    (ResWords.zero.w0).toNat < 4 ∧ (3 : Word).toNat < 4 ∧ 4 ≤ (4 : Word).toNat := by decide
theorem witness_ValidationBeforeIO :
    Config.spec.factors = ConversionFactor.source ∧ Config.spec.bounds = CorrectionBounds.source ∧
    (0 : ℚ) ≤ 65535 * Config.spec.factors.voltage ∧ ((-1 : ℚ) < 0) ∧ ((11874942 / 100000 : ℚ) < 119) ∧
    ((1507 / 1000 : ℚ) ≤ 2) ∧ ((2 : ℚ) ≤ 97255752 / 1000000) ∧ ((1 : ℚ) < 1507 / 1000) ∧
    (-(21475245 / 550000) ≤ (0 : ℚ)) := by
  norm_num [Config.spec, ConversionFactor.source]

end Sys2Proof.Machine
end

/-! PROOFS. The scope of the block: what DECODE answers, what an instruction that is not enabled leaves, that no
step stops, and which instruction a step runs. -/

namespace Sys2Proof.Machine

/-! ## The raw frame -/

/-- A buffer in form and in range answers every read of a part that has been written (R11). -/
theorem memRead_isOk {cap a n : Nat} {m : Memory} (hcap : a + n ≤ cap)
    (hm : ∀ i < n, (Memory.read m (a + i)).isSome) : ∃ bs, memRead cap m a n = .ok bs := by
  obtain ⟨bs, hbs⟩ := Memory.readRange_isSome hm
  exact ⟨bs, memRead_eq_ok.mpr ⟨hcap, hbs⟩⟩

/-- The raw frame is the sequence that RXBUF holds (R160). -/
theorem rawFrame_of_holdsFrame {c : Config} {s : State} {f : List Byte} (h : HoldsFrame c.rxCap s f) :
    rawFrame c s = .ok f := by
  obtain ⟨hlen, hcap, hread⟩ := h
  refine memRead_eq_ok.mpr ⟨by omega, Memory.readRange_eq_some.mpr ⟨hlen.symm, fun i hi => ?_⟩⟩
  rw [Nat.zero_add]
  exact hread i (by omega)

/-! ## DECODE -/

theorem execDecode_bytes (c : Config) (f : List Byte) (s : State) :
    execDecode (.bytes f) s c =
      .next (s.withOutput (some (.returned (.decoded (decodeFrame c f false))))) := rfl

theorem execDecode_received {c : Config} {s : State} {f : List Byte} (hs : s.seqState = .decoded)
    (hf : rawFrame c s = .ok f) :
    execDecode .received s c =
      .next (s.withOutput (some (.returned (.decoded (decodeFrame c f s.rxOvf))))) := by
  simp [execDecode, hs, hf, giveValue]

/-- No partial frame is decoded (R70). -/
theorem execDecode_received_not_decoded {c : Config} {s : State} (hs : s.seqState ≠ .decoded) :
    execDecode .received s c = .next (s.withOutput none) := by
  simp [execDecode, hs, unchanged]

/-- Settles O14: the received frame is what RXBUF holds, and DECODE is given it in Decoded only. -/
theorem decodeCompletes : Obligations.DecodeCompletes :=
  ⟨fun f s => execDecode_bytes Config.spec f s,
   fun _ _ hs hf => execDecode_received hs (rawFrame_of_holdsFrame (c := Config.spec) hf),
   fun _ hs => execDecode_received_not_decoded hs⟩

/-! ## What is not enabled -/

/-- The recognizer's state in which a row of its table applies; none for an instruction that is no row
(R152 to R163). -/
def rowState : Instr → Option RxState
  | .rxStartStx => some .awaitingStart
  | .rxStartEtx => some .awaitingStart
  | .rxStartCr => some .awaitingStart
  | .rxStartOther _ => some .awaitingStart
  | .rxEndStx => some .awaitingEnd
  | .rxEndEtx => some .awaitingEnd
  | .rxEndCr => some .awaitingEnd
  | .rxEndOther _ => some .awaitingEnd
  | .rxTermCr => some .awaitingTerminator
  | .rxTermStx => some .awaitingTerminator
  | .rxTermEtx => some .awaitingTerminator
  | .rxTermOther _ => some .awaitingTerminator
  | _ => none

/-- A row is a transition from the recognizer's state of that row. -/
theorem execWith_row {i : Instr} {st : RxState} (c : Config) (h : rowState i = some st) :
    ∃ act, ∀ s, execWith c i s = rxTransition st act s := by
  cases i with
  | rxStartStx | rxStartEtx | rxStartCr | rxStartOther b
  | rxEndStx | rxEndEtx | rxEndCr | rxEndOther b
  | rxTermCr | rxTermStx | rxTermEtx | rxTermOther b =>
    obtain rfl := Option.some.inj h
    exact ⟨_, fun _ => rfl⟩
  | _ => exact absurd h (by simp [rowState])

/-- A row that is not selected leaves the state as it is (R150; log entry 7). -/
theorem execWith_row_not_selected {c : Config} {i : Instr} {st : RxState} {s : State}
    (h : rowState i = some st) (hs : s.seqState ≠ .awaitingFrame ∨ s.rxState ≠ st) :
    execWith c i s = .next (s.withOutput none) := by
  obtain ⟨act, hact⟩ := execWith_row c h
  rw [hact, rxTransition_eq, if_neg (by tauto)]

/-- The rows of one recognizer state, given as the three fixed bytes' rows and the row of every other byte. -/
theorem rowState_of_mem {rows : List Instr} {other : Byte → Instr} {st : RxState} {i : Instr}
    (hrows : ∀ j ∈ rows, rowState j = some st) (hother : ∀ b, rowState (other b) = some st)
    (hi : i ∈ rows ∨ ∃ b, i = other b) : rowState i = some st := by
  rcases hi with hi | ⟨b, rfl⟩
  · exact hrows i hi
  · exact hother b

/-- READFRAME waits outside AwaitingFrame and on an empty source (log entry 7). -/
theorem execReadframe_waits {c : Config} {s : State} (hs : s.seqState ≠ .awaitingFrame ∨ s.env.source = []) :
    execReadframe s c = .next (s.withOutput none) := by
  unfold execReadframe
  split
  · rename_i b rest hseq hsrc
    simp [hseq, hsrc] at hs
  · rfl

/-- CLASSIFY waits outside Decoded (R265). -/
theorem classifyFrame_not_decoded {c : Config} {s : State} (hs : s.seqState ≠ .decoded) :
    classifyFrame c s = .next (s.withOutput none) := by
  simp [classifyFrame, hs, unchanged]

/-- Settles O32: each row by its recognizer state, and the three operations by their own guards. -/
theorem notEnabledChangesNothing : Obligations.NotEnabledChangesNothing := fun _ _ =>
  ⟨fun hs _ hi => execWith_row_not_selected (rowState_of_mem (by decide) (fun _ => rfl) hi) hs,
   fun hs _ hi => execWith_row_not_selected (rowState_of_mem (by decide) (fun _ => rfl) hi) hs,
   fun hs _ hi => execWith_row_not_selected (rowState_of_mem (by decide) (fun _ => rfl) hi) hs,
   execReadframe_waits,
   fun hs => ⟨classifyFrame_not_decoded hs, execDecode_received_not_decoded hs⟩⟩

/-! ## No step stops -/

/-- The invariant does not read the environment. -/
theorem Inv.withEnv {c : Config} {s : State} (h : Inv c s) (e : Env) : Inv c { s with env := e } :=
  ⟨h.counters, h.buffers, h.sequencer, h.recognizer, h.received, h.result⟩

theorem Inv.arrive {c : Config} {s : State} (h : Inv c s) : Inv c s.arrive := h.withEnv _

theorem Inv.take {c : Config} {s : State} (h : Inv c s) (x : Code) : Inv c (s.take x) := h.withEnv _

/-- The raw frame lies in RXBUF and has been written (R24). -/
theorem Inv.rawFrame_isOk {c : Config} {s : State} (h : Inv c s) : ∃ f, rawFrame c s = .ok f := by
  obtain ⟨hlen, -, -⟩ := h.counters
  obtain ⟨⟨-, -, hread⟩, -⟩ := h.buffers
  exact memRead_isOk (by omega) (fun i hi => by simpa using hread i hi)

/-- In Sent the next byte lies in TXBUF and has been written (R27, R28). -/
theorem Inv.nextByte {c : Config} {s : State} (h : Inv c s) (hs : s.seqState = .sent) :
    s.txIdx < c.txCap ∧ ∃ b, Memory.read s.txBuf s.txIdx = some b := by
  obtain ⟨-, -, hcap⟩ := h.counters
  obtain ⟨-, -, -, hread⟩ := h.buffers
  have hseq := h.sequencer
  simp only [SequencerOk, hs] at hseq
  obtain ⟨-, hidx, -⟩ := hseq
  exact ⟨by omega, Option.isSome_iff_exists.mp (hread s.txIdx hidx)⟩

theorem transmitByte_completes {c : Config} {s : State} (h : Inv c s) : ∃ t, transmitByte c s = .next t := by
  by_cases hs : s.seqState = .sent
  · obtain ⟨hcap, b, hb⟩ := h.nextByte hs
    exact ⟨_, transmitByte_sent hs hcap hb⟩
  · exact ⟨_, if_neg hs⟩

theorem classifyFrame_completes {c : Config} {s : State} (h : Inv c s) :
    ∃ t, classifyFrame c s = .next t := by
  by_cases hs : s.seqState = .decoded
  · obtain ⟨f, hf⟩ := h.rawFrame_isOk
    exact ⟨_, classifyFrame_decoded hs hf⟩
  · exact ⟨_, classifyFrame_not_decoded hs⟩

theorem execDecode_completes {c : Config} {s : State} (h : Inv c s) (arg : DecodeArg) :
    ∃ t, execDecode arg s c = .next t := by
  cases arg with
  | received =>
    by_cases hs : s.seqState = .decoded
    · obtain ⟨f, hf⟩ := h.rawFrame_isOk
      exact ⟨_, execDecode_received hs hf⟩
    · exact ⟨_, execDecode_received_not_decoded hs⟩
  | bytes f => exact ⟨_, execDecode_bytes c f s⟩

theorem execReadframe_completes (c : Config) (s : State) : ∃ t, execReadframe s c = .next t := by
  unfold execReadframe
  split <;> exact ⟨_, rfl⟩

theorem execEncode_completes (c : Config) (k : Cmd) (p : Payload) (s : State) :
    ∃ t, execEncode k p s c = .next t := by
  unfold execEncode
  split <;> exact ⟨_, rfl⟩

theorem commandMeaning_completes (c : Config) (m : Command) (sp : Spelling) (u : CmdUse) (s : State) :
    ∃ t, commandMeaning m sp u c s = .next t := by
  cases u with
  | request p => exact ⟨_, exchangeStart_eq _ _ _ _⟩
  | dispatch => exact ⟨_, rfl⟩

theorem execWith_row_completes {i : Instr} {st : RxState} (c : Config) (h : rowState i = some st)
    (s : State) : ∃ t, execWith c i s = .next t := by
  obtain ⟨act, hact⟩ := execWith_row c h
  exact ⟨_, (hact s).trans (rxTransition_eq st act s)⟩

/-- In a state with the invariant every instruction completes: only SEND, DECODE and CLASSIFY read a buffer,
and the invariant gives them the bytes. The last case is that of RESET and of the functions
that only answer a value. -/
theorem execWith_completes {c : Config} {s : State} (h : Inv c s) (i : Instr) :
    ∃ t, execWith c i s = .next t := by
  cases i with
  | hxx sp u | hpo sp u | hst sp u | hrt sp u | hof sp u | hon sp u | hcm sp u | hre sp u
  | hbv sp u | hgt sp u | hgv sp u | hgc sp u | hgs sp u | hsc sp u | hrc sp u =>
    exact commandMeaning_completes c _ sp u s
  | rxStartStx | rxStartEtx | rxStartCr | rxStartOther b
  | rxEndStx | rxEndEtx | rxEndCr | rxEndOther b
  | rxTermCr | rxTermStx | rxTermEtx | rxTermOther b =>
    exact execWith_row_completes c rfl s
  | encode k p => exact execEncode_completes c k p s
  | send => exact transmitByte_completes h
  | readframe => exact execReadframe_completes c s
  | decode arg => exact execDecode_completes h arg
  | classify => exact classifyFrame_completes h
  | exchange k p => exact ⟨_, exchangeStart_eq c k p s⟩
  | deadline => exact ⟨_, deadlineExpired_eq s⟩
  | _ => exact ⟨_, rfl⟩

theorem stepWith_completes {c : Config} {s : State} (h : Inv c s) : stepCompletes c s := by
  unfold stepCompletes stepWith
  split
  · exact ⟨_, rfl⟩
  · rename_i x _
    split
    · exact execWith_completes (h.arrive.take x) _
    · exact ⟨_, rfl⟩

/-- Settles O48: the invariant outlasts the environment's move and the taking of an event, and under it every
instruction completes. -/
theorem noStepStops : Obligations.NoStepStops := by
  refine ⟨fun s h => ?_, fun c s h => stepWith_completes h⟩
  rw [step_eq_stepWith]
  exact stepWith_completes h

/-! ## Which instruction a step runs -/

theorem step_of_decode {s : State} {x : Code} {i : Instr} (hx : selectEvent s.arrive = some x)
    (hi : decode x = .ok i) : step s = exec i (s.arrive.take x) := by
  simp [step, hx, hi]

theorem step_of_no_event {s : State} (hx : selectEvent s.arrive = none) :
    step s = .next (s.arrive.withOutput none) := by
  simp [step, hx, unchanged]

/-- Settles O44, by the two cases of the event chosen. -/
theorem stepRunsTheDecodedInstruction : Obligations.StepRunsTheDecodedInstruction :=
  ⟨fun _ _ _ => step_of_decode, fun _ => step_of_no_event⟩

end Sys2Proof.Machine

/-! PROOFS. The state and its invariant: the reset values, what every step keeps, what it changes of the source,
the sequencer and the result registers, and what the host reads of the state. -/

namespace Sys2Proof.Machine

/-! ## What DECODE supplies, within the bounds of the result registers -/

/-- The context of every decoded frame: its length, a frame size of the catalog or 0, and a cause when it fails
(R197). -/
theorem decodeFrame_context (c : Config) (f : List Byte) (ovf : Bool) :
    (decodeFrame c f ovf).actLen = f.length ∧
    ((decodeFrame c f ovf).expLen = 0 ∨
      ∃ e, dispatchLookup c (cmdField f) = some e ∧ (decodeFrame c f ovf).expLen = e.frameSize) ∧
    (decodeFrame c f ovf).result ≠ .frameError .none := by
  unfold decodeFrame
  repeat' split
  all_goals simp_all

theorem decodeFrame_expLen_le {c : Config} (hc : c.wf = true) (f : List Byte) (ovf : Bool) :
    (decodeFrame c f ovf).expLen ≤ c.rxCap := by
  obtain ⟨-, hzero | ⟨e, he, hsize⟩, -⟩ := decodeFrame_context c f ovf
  · omega
  · obtain ⟨r, hr, -, rfl⟩ := dispatchLookup_eq_some he
    obtain ⟨-, -, hfits⟩ := catalog_bounds hc hr
    exact hsize.trans_le hfits

/-- The six result words hold the words of every accepted frame (R33, R39). -/
theorem decodeFrame_words_le {c : Config} (hc : c.wf = true) {f : List Byte} {ovf : Bool} {k : Cmd}
    {ws : List Word} (h : (decodeFrame c f ovf).result = .ok k ws) : ws.length ≤ 6 := by
  obtain ⟨-, hlen, -, -, -, -, hsize, -, hws⟩ := decodeFrame_ok h
  obtain ⟨r, hr, -, hrsize⟩ := catalogSize_eq_some hsize
  obtain ⟨-, hbound, -⟩ := catalog_bounds hc hr
  have hdata : (dataField f).length = f.length - 4 - 4 := slice_length (by omega)
  have hwords := parseWords_length hws
  omega

/-- `RX_CAP` holds the longest frame of the spec (R8). -/
theorem rxCap_ge {c : Config} (hc : c.wf = true) : 32 ≤ c.rxCap := by
  simp only [Config.wf, Bool.and_eq_true, decide_eq_true_eq] at hc
  obtain ⟨⟨⟨hcap, -⟩, -⟩, -⟩ := hc
  exact hcap

/-- The index of a message has three bits (R34). -/
theorem msgIndex_le (e : Word) : msgIndex e ≤ 7 := by
  unfold msgIndex
  split <;> omega

/-! ## The result registers -/

/-- Cleared result registers are in form in every state of the sequencer (R262). -/
theorem resultOk_of_cleared {c : Config} {t : State} (hres : t.res = Result.zero)
    (hvalid : t.resValid = false) : ResultOk c t := by
  simp [ResultOk, hres, hvalid, Result.zero]

/-- While an exchange runs the result registers are clear (R262). -/
theorem Inv.res_cleared {c : Config} {s : State} (h : Inv c s) (hs : s.seqState ≠ .idle) :
    s.resValid = false ∧ s.res = Result.zero := by
  obtain ⟨hvalid, hzero, -⟩ := h.result
  exact ⟨hvalid hs, hzero (hvalid hs)⟩

/-- An exchange that goes on keeps its cleared result registers. -/
theorem Inv.resultOk_of_running {c : Config} {s t : State} (h : Inv c s) (hs : s.seqState ≠ .idle)
    (hres : t.res = s.res) (hvalid : t.resValid = s.resValid) : ResultOk c t := by
  obtain ⟨hv, hz⟩ := h.res_cleared hs
  exact resultOk_of_cleared (hres.trans hz) (hvalid.trans hv)

/-- The outcome of a frame that fits the receive buffer keeps every register in its range (R270 to R273). -/
theorem resultOk_outcome {c : Config} (hc : c.wf = true) {f : List Byte} (hf : f.length ≤ c.rxCap) (ovf : Bool)
    (last : Cmd) (s : State) :
    ResultOk c (endExchange (outcome c last (decodeFrame c f ovf) Result.zero) s) := by
  obtain ⟨hact, -, hcause⟩ := decodeFrame_context c f ovf
  have hexp := decodeFrame_expLen_le hc f ovf
  rcases outcome_cases c last (decodeFrame c f ovf) Result.zero with
    ⟨x, hx, ho⟩ | ⟨ws, -, ho⟩ | ⟨k, ws, -, -, -, -, ho⟩ | ⟨k, ws, hws, -, -, ho⟩ <;> rw [ho]
  · have hne : x ≠ .none := fun h => hcause (h ▸ hx)
    simp [ResultOk, Result.zero, hact, hexp, hf, hne]
  · simp [ResultOk, Result.zero, hact, hexp, hf, msgIndex_le]
  · simp [ResultOk, Result.zero, hact, hexp, hf]
  · have hwords := decodeFrame_words_le hc hws
    simp [ResultOk, Result.zero, hact, hexp, hf, hwords]

/-- Timeout reports the bytes kept, and nothing else (R277). -/
theorem resultOk_timeout {c : Config} {n : Nat} (hn : n ≤ c.rxCap) (s : State) :
    ResultOk c (endExchange { Result.zero with kind := .timeout, cause := .none, actLen := n } s) := by
  simp [ResultOk, Result.zero, hn]

/-! ## The reset state -/

theorem inv_reset (c : Config) : Inv c State.reset where
  counters := ⟨Nat.zero_le _, Nat.le_refl _, Nat.zero_le _⟩
  buffers := by simp [BuffersOk, bufferOk, State.reset]
  sequencer := by simp [SequencerOk, State.reset]
  recognizer := by simp [RecognizerIdle, State.reset]
  received := by simp [ReceivedOk, State.reset]
  result := resultOk_of_cleared rfl rfl

/-- Settles O46: with every counter 0, every buffer empty and every register clear. -/
theorem resetStateIsInvariant : Obligations.ResetStateIsInvariant := inv_reset

/-- Settles O41: RESET writes the reset state over everything but the environment. -/
theorem resetStep : Obligations.ResetStep := by
  refine fun s => ⟨resetBlock s, rfl, rfl, fun u hu => ?_⟩
  rcases List.mem_pair.mp hu with rfl | rfl <;>
    exact ⟨rfl, rfl, rfl, rfl, rfl, rfl, rfl, rfl, rfl, rfl, rfl, rfl, rfl, rfl, rfl, rfl, rfl, rfl, rfl⟩

/-! ## The invariant through a byte received -/

theorem keep_rxLen_le (c : Config) (b : Byte) (s : State) : s.rxLen ≤ (keep c b s).rxLen := by
  rcases keep_cases c b s with ⟨-, hlen, -⟩ | ⟨-, hlen, -⟩ <;> omega

theorem CountersOk.keep {c : Config} {s : State} (h : CountersOk c s) (b : Byte) :
    CountersOk c (Machine.keep c b s) := by
  obtain ⟨hrx, hidx, htx⟩ := h
  refine ⟨?_, by simpa using hidx, by simpa using htx⟩
  rcases keep_cases c b s with ⟨hlt, hlen, -⟩ | ⟨-, hlen, -⟩ <;> omega

theorem BuffersOk.keep {c : Config} {s : State} (h : BuffersOk c s) (b : Byte) :
    BuffersOk c (Machine.keep c b s) := by
  obtain ⟨hrx, htx⟩ := h
  refine ⟨?_, by simpa using htx⟩
  rcases keep_cases c b s with ⟨hlt, hlen, -, hbuf⟩ | ⟨-, hlen, -, hbuf⟩
  · rw [hbuf, hlen]
    exact bufferOk_write hrx hlt
  · rwa [hbuf, hlen]

/-- Bytes are dropped only from a full buffer (R26, R151). -/
theorem Inv.keep_full_of_ovf {c : Config} {s : State} (h : Inv c s) (b : Byte) :
    (keep c b s).rxOvf = true → (keep c b s).rxLen = c.rxCap := by
  obtain ⟨hfull, -⟩ := h.received
  obtain ⟨hcap, -, -⟩ := h.counters
  intro hovf
  rcases keep_cases c b s with ⟨hlt, -, hsame, -⟩ | ⟨hge, hlen, -, -⟩
  · have := hfull (hsame ▸ hovf)
    omega
  · omega

/-- A byte kept inside a frame leaves the STX at its front (R199). -/
theorem keep_front {c : Config} {b : Byte} {s : State} {n : Nat} (hn : 0 < n)
    (h : n ≤ s.rxLen ∧ Memory.read s.rxBuf 0 = some STX) :
    n ≤ (keep c b s).rxLen ∧ Memory.read (keep c b s).rxBuf 0 = some STX := by
  obtain ⟨hlen, hstx⟩ := h
  exact ⟨hlen.trans (keep_rxLen_le c b s), (keep_read_below c b s (by omega)).trans hstx⟩

/-- What of the invariant a byte received in AwaitingFrame keeps, whatever the recognizer does with it. -/
theorem Inv.of_byte_kept {c : Config} {b : Byte} {s t : State} (h : Inv c s) (hs : s.seqState = .awaitingFrame)
    (rs : RxState) (q : SeqState) (ht : t = { keep c b s with rxState := rs, seqState := q })
    (hsequencer : SequencerOk t) (hrecognizer : RecognizerIdle t) (hreceived : ReceivedOk c t) : Inv c t := by
  subst ht
  exact
    { counters := h.counters.keep b
      buffers := h.buffers.keep b
      sequencer := hsequencer
      recognizer := hrecognizer
      received := hreceived
      result := h.resultOk_of_running (by simp [hs]) (keep_res c b s) (keep_resValid c b s) }

/-- In AwaitingFrame the whole request has been sent (R28). -/
theorem Inv.all_sent {c : Config} {s : State} (h : Inv c s) (hs : s.seqState = .awaitingFrame) :
    s.txIdx = s.txLen := by
  have hseq := h.sequencer
  rwa [SequencerOk, hs] at hseq

/-- A byte kept while the recognizer stays where it is (R153 to R163). -/
theorem Inv.stay {c : Config} {s : State} (h : Inv c s) (b : Byte) (hs : s.seqState = .awaitingFrame)
    (hk : s.rxState = .awaitingStart → c.rxKeepPreamble = true) : Inv c (keep c b s) := by
  refine h.of_byte_kept (b := b) hs s.rxState s.seqState ?_ ?_ ?_ ⟨h.keep_full_of_ovf b, fun hpre => ?_⟩
  · rw [← keep_rxState c b s, ← keep_seqState c b s]
  · simpa [SequencerOk, hs] using h.all_sent hs
  · simp [RecognizerIdle, hs]
  · obtain ⟨-, hrcv⟩ := h.received
    obtain ⟨-, hend, hterm, -⟩ := hrcv hpre
    refine ⟨fun _ hr => ?_, fun _ hr => ?_, fun _ hr => ?_, fun hd => ?_⟩
    · simp [hk (by simpa using hr)] at hpre
    · exact keep_front Nat.one_pos (hend hs (by simpa using hr))
    · exact keep_front Nat.two_pos (hterm hs (by simpa using hr))
    · simp [hs] at hd

/-- STX begins the frame, at the front of an empty buffer when no preamble is kept (R152, R199). -/
theorem Inv.stx {c : Config} {s : State} (hc : c.wf = true) (h : Inv c s) (hs : s.seqState = .awaitingFrame)
    (hr : s.rxState = .awaitingStart) : Inv c { keep c STX s with rxState := .awaitingEnd } := by
  refine h.of_byte_kept (b := STX) hs .awaitingEnd .awaitingFrame (by rw [← hs, ← keep_seqState c STX s]) ?_ ?_
    ⟨h.keep_full_of_ovf STX, fun hpre => ?_⟩
  · simpa [SequencerOk, hs] using h.all_sent hs
  · simp [RecognizerIdle, hs]
  · obtain ⟨-, hrcv⟩ := h.received
    obtain ⟨hstart, -⟩ := hrcv hpre
    obtain ⟨hempty, -⟩ := hstart hs hr
    have hcap := rxCap_ge hc
    rcases keep_cases c STX s with ⟨-, hlen, -, hbuf⟩ | ⟨hfull, -⟩
    · simp [hs, hlen, hbuf, hempty]
    · omega

/-- ETX ends the payload (R157). -/
theorem Inv.etx {c : Config} {s : State} (hc : c.wf = true) (h : Inv c s) (hs : s.seqState = .awaitingFrame)
    (hr : s.rxState = .awaitingEnd) : Inv c { keep c ETX s with rxState := .awaitingTerminator } := by
  refine h.of_byte_kept (b := ETX) hs .awaitingTerminator .awaitingFrame
    (by rw [← hs, ← keep_seqState c ETX s]) ?_ ?_ ⟨h.keep_full_of_ovf ETX, fun hpre => ?_⟩
  · simpa [SequencerOk, hs] using h.all_sent hs
  · simp [RecognizerIdle, hs]
  · obtain ⟨-, hrcv⟩ := h.received
    obtain ⟨-, hend, -, -⟩ := hrcv hpre
    obtain ⟨hlen, hstx⟩ := keep_front (c := c) (b := ETX) Nat.one_pos (hend hs hr)
    have hcap := rxCap_ge hc
    have htwo : 2 ≤ (keep c ETX s).rxLen := by
      obtain ⟨hone, -⟩ := hend hs hr
      rcases keep_cases c ETX s with ⟨-, hl, -⟩ | ⟨hfull, hl, -⟩ <;> omega
    simp [hs, htwo, hstx]

/-- CR completes the frame: it is the last byte kept, or the frame has overflowed (R160, R199). -/
theorem Inv.cr {c : Config} {s : State} (h : Inv c s) (hs : s.seqState = .awaitingFrame)
    (hr : s.rxState = .awaitingTerminator) : Inv c (frameComplete (keep c CR s)) := by
  refine h.of_byte_kept (b := CR) hs .awaitingStart .decoded rfl ?_ ?_ ⟨h.keep_full_of_ovf CR, fun hpre => ?_⟩
  · rcases keep_cases c CR s with ⟨-, hlen, -⟩ | ⟨-, -, hovf, -⟩
    · simp [SequencerOk, hlen]
    · simp [SequencerOk, hovf]
  · simp [RecognizerIdle]
  · obtain ⟨-, hrcv⟩ := h.received
    obtain ⟨-, -, hterm, -⟩ := hrcv hpre
    obtain ⟨-, hstx⟩ := keep_front (c := c) (b := CR) Nat.two_pos (hterm hs hr)
    obtain ⟨htwo, -⟩ := hterm hs hr
    rcases keep_cases c CR s with ⟨-, hlen, -, hbuf⟩ | ⟨-, -, hovf, -⟩
    · have hcr : Memory.read (keep c CR s).rxBuf s.rxLen = some CR := by simp [hbuf]
      simp [hstx, hlen, hcr, htwo]
    · simp [hovf]

/-! ## The invariant through the other effects -/

theorem Inv.withOutput {c : Config} {s : State} (h : Inv c s) (o : Option Output) : Inv c (s.withOutput o) :=
  h.withEnv _

theorem Inv.withSource {c : Config} {s : State} (h : Inv c s) (src : List Byte) : Inv c (s.withSource src) :=
  h.withEnv _

/-- A buffer into which a sequence has been written from its front on holds that sequence. -/
theorem bufferOk_writeRange {cap n : Nat} {m : Memory} {bs : List Byte} (h : bufferOk cap m n)
    (hbs : bs.length ≤ cap) : bufferOk cap (Memory.writeRange m 0 bs) bs.length := by
  obtain ⟨hwf, hrange, -⟩ := h
  obtain ⟨hwf', hrange'⟩ := writeRange_range (bs := bs) (a := 0) hwf hrange (by omega)
  refine ⟨hwf', hrange', fun i hi => ?_⟩
  rw [Memory.read_writeRange, if_pos (by omega)]
  simpa using hi

/-- A buffer of which nothing is in use any more is still in form. -/
theorem bufferOk_cleared {cap n : Nat} {m : Memory} (h : bufferOk cap m n) : bufferOk cap m 0 := by
  obtain ⟨hwf, hrange, -⟩ := h
  exact ⟨hwf, hrange, fun i hi => absurd hi (Nat.not_lt_zero i)⟩

/-- The effect of EXCHANGE start with a DATA field that fits (R262). -/
theorem Inv.start {c : Config} {s t : State} (h : Inv c s) {k : Cmd} {p : Payload}
    (hp : (dataBytes p).length ≤ c.txMaxData) (hrxBuf : t.rxBuf = s.rxBuf)
    (htxBuf : t.txBuf = Memory.writeRange s.txBuf 0 (frameBytes (upperCmd k) (dataBytes p)))
    (hcleared : t.rxLen = 0 ∧ t.rxOvf = false ∧ t.rxState = .awaitingStart)
    (hsent : t.seqState = .sent ∧ t.txIdx = 0 ∧ t.txLen = 8 + (dataBytes p).length)
    (hres : t.res = Result.zero ∧ t.resValid = false) : Inv c t := by
  obtain ⟨hrx, htx⟩ := h.buffers
  obtain ⟨hlen, hovf, hr⟩ := hcleared
  obtain ⟨hseq, hidx, htlen⟩ := hsent
  have hfit : (frameBytes (upperCmd k) (dataBytes p)).length ≤ c.txCap := by simp [Config.txCap]; omega
  refine ⟨?_, ⟨?_, ?_⟩, ?_, ?_, ?_, resultOk_of_cleared hres.1 hres.2⟩
  · simp [CountersOk, hlen, hidx, htlen, Config.txCap, hp]
  · rw [hrxBuf, hlen]
    exact bufferOk_cleared hrx
  · rw [htxBuf, htlen, ← frameBytes_length (upperCmd k)]
    exact bufferOk_writeRange htx hfit
  · simp [SequencerOk, hseq, hidx, htlen, hlen, hovf, hr]
  · simp [RecognizerIdle, hr]
  · simp [ReceivedOk, hovf, hseq]

/-- The transmit step goes on while bytes are left, and to AwaitingFrame after the last one (R137). -/
theorem Inv.send {c : Config} {s t : State} (h : Inv c s) (hs : s.seqState = .sent)
    (ht : t = { s with
      txIdx := s.txIdx + 1
      seqState := if s.txIdx + 1 = s.txLen then .awaitingFrame else .sent
      env := t.env }) : Inv c t := by
  have hseq := h.sequencer
  simp only [SequencerOk, hs] at hseq
  obtain ⟨height, hidx, hlen, hovf, hr⟩ := hseq
  obtain ⟨hrxcap, -, htxcap⟩ := h.counters
  rw [ht]
  refine ⟨⟨hrxcap, hidx, htxcap⟩, h.buffers, ?_, ?_, ?_, h.resultOk_of_running (by simp [hs]) rfl rfl⟩
  · by_cases hlast : s.txIdx + 1 = s.txLen
    · simp [SequencerOk, hlast]
    · simp only [SequencerOk, if_neg hlast]
      exact ⟨height, by omega, hlen, hovf, hr⟩
  · simp [RecognizerIdle, hr]
  · by_cases hlast : s.txIdx + 1 = s.txLen <;> simp [ReceivedOk, hlast, hlen, hovf, hr]

/-- The end of an exchange leaves the block Idle with the frame state cleared (R274). -/
theorem Inv.of_ended {c : Config} {s : State} (h : Inv c s) (r : Result)
    (hres : ResultOk c (endExchange r s)) :
    Inv c { endExchange r s with rxState := .awaitingStart } := by
  obtain ⟨hrx, htx⟩ := h.buffers
  exact
    { counters := ⟨Nat.zero_le _, Nat.le_refl _, Nat.zero_le _⟩
      buffers := ⟨bufferOk_cleared hrx, bufferOk_cleared htx⟩
      sequencer := by simp [SequencerOk]
      recognizer := by simp [RecognizerIdle]
      received := by simp [ReceivedOk]
      result := hres }

/-- CLASSIFY, whose frame lies in the receive buffer (R270). -/
theorem Inv.classify {c : Config} {s : State} (hc : c.wf = true) (h : Inv c s) {f : List Byte}
    (hs : s.seqState = .decoded) (hf : rawFrame c s = .ok f) :
    Inv c (endExchange (outcome c s.lastCmd (decodeFrame c f s.rxOvf) s.res) s) := by
  obtain ⟨hcap, -, -⟩ := h.counters
  have hlen : f.length ≤ c.rxCap := (rawFrame_length hf).trans_le hcap
  obtain ⟨-, hzero⟩ := h.res_cleared (by simp [hs])
  have hseq := h.sequencer
  simp only [SequencerOk, hs] at hseq
  obtain ⟨hr, -⟩ := hseq
  rw [hzero]
  have hended := h.of_ended _ (resultOk_outcome hc hlen s.rxOvf s.lastCmd s)
  rwa [← hr] at hended

/-- DEADLINE in Sent or AwaitingFrame (R277). -/
theorem Inv.deadline {c : Config} {s : State} (h : Inv c s)
    (hs : s.seqState = .sent ∨ s.seqState = .awaitingFrame) :
    Inv c { endExchange { s.res with kind := .timeout, cause := .none, actLen := s.rxLen } s with
      rxState := .awaitingStart } := by
  obtain ⟨hcap, -, -⟩ := h.counters
  obtain ⟨-, hzero⟩ := h.res_cleared (by rcases hs with hs | hs <;> simp [hs])
  rw [hzero]
  exact h.of_ended _ (resultOk_timeout hcap s)

/-! ## Every step keeps the invariant -/

/-- Every effect that an instruction can have keeps the invariant (R42). -/
theorem Effect.keeps_inv {c : Config} {s t : State} (hc : c.wf = true) (h : Inv c s) (he : Effect c s t) :
    Inv c t := by
  cases he with
  | quiet o _ _ => exact h.withOutput o
  | start k p hs hp => exact h.start hp rfl rfl ⟨rfl, rfl, rfl⟩ ⟨rfl, rfl, rfl⟩ ⟨rfl, rfl⟩
  | send b hs _ _ => exact h.send hs rfl
  | discard src _ _ _ => exact (h.withSource src).withOutput none
  | stay src b hs hk => exact ((h.withSource src).stay b hs hk).withOutput none
  | stx src hs hr => exact ((h.withSource src).stx hc hs hr).withOutput none
  | etx src hs hr => exact ((h.withSource src).etx hc hs hr).withOutput none
  | cr src hs hr => exact ((h.withSource src).cr hs hr).withOutput none
  | classify f hs hf => exact h.classify hc hs hf
  | deadline hs => exact h.deadline hs
  | reset => exact (inv_reset c).withEnv _

theorem stepWith_keeps_inv {c : Config} {s t : State} (hc : c.wf = true) (h : Inv c s)
    (hstep : stepWith c s = .next t) : Inv c t := by
  rcases stepWith_effect hstep with ⟨-, rfl⟩ | ⟨x, -, he⟩
  · exact h.arrive.withOutput none
  · exact he.keeps_inv hc (h.arrive.take x)

/-- Settles O47: the environment's move and the taking of an event leave the invariant alone, and each of the
eleven effects keeps it. -/
theorem stepKeepsInvariant : Obligations.StepKeepsInvariant := by
  refine ⟨fun s t h hstep => ?_, fun c s t hc h hstep => stepWith_keeps_inv hc h hstep⟩
  rw [step_eq_stepWith] at hstep
  exact stepWith_keeps_inv (by decide) h hstep

/-! ## Which event a step takes, and what it does -/

/-- What the block does with the code of an event that it has taken. -/
def runCode (c : Config) (x : Code) (s : State) : Host.Outcome State Fault Refusal :=
  match decode x c with
  | .ok i => execWith c i s
  | .error r => rejectCode r s

/-- The events that a step can take, each with what presents it (R280, R356). -/
inductive Selected (a : State) : Code → Prop
  | reset (h : a.env.resetStrobe = true) : Selected a .resetEvent
  | deadline : Selected a .deadlineEvent
  | txReady : Selected a .txReadyEvent
  | byte (b : Byte) (rest : List Byte) (hs : a.seqState = .awaitingFrame) (hsrc : a.env.source = b :: rest) :
      Selected a (.byte8 a.rxState b)
  | tau (hs : a.seqState = .decoded) : Selected a .tauEvent
  | request (w : BitVec 24) (p : Payload) : Selected a (.cmd24 w (.request p))
  | probe (p : Probe) : Selected a (probeCode p)

theorem selected_of_enabledEvent {a : State} {x : Code} (h : enabledEvent a = some x) : Selected a x := by
  unfold enabledEvent at h
  split at h
  · cases h
  · obtain ⟨-, h⟩ := Option.ite_none_right_eq_some.mp h
    obtain rfl := Option.some.inj h
    exact .txReady
  · rename_i hs
    split at h
    · cases h
    · rename_i b rest hsrc
      obtain rfl := Option.some.inj h
      exact .byte b rest hs hsrc
  · rename_i hs
    obtain rfl := Option.some.inj h
    exact .tau hs

theorem selected_of_pendingCode {a : State} {x : Code} (h : pendingCode a = some x) : Selected a x := by
  unfold pendingCode at h
  split at h
  · obtain rfl := Option.some.inj h
    exact .request _ _
  · obtain rfl := Option.some.inj h
    exact .probe _
  · obtain ⟨-, h⟩ := Option.ite_none_right_eq_some.mp h
    obtain rfl := Option.some.inj h
    exact .txReady

theorem selected_of_selectEvent {a : State} {x : Code} (h : selectEvent a = some x) : Selected a x := by
  unfold selectEvent at h
  split at h
  · obtain rfl := Option.some.inj h
    exact .reset ‹_›
  · split at h
    · obtain rfl := Option.some.inj h
      exact .deadline
    · rcases Option.or_eq_some_iff.mp h with h | ⟨-, h⟩
      · exact selected_of_enabledEvent h
      · exact selected_of_pendingCode h

/-- With nothing to take the block waits (R11). -/
theorem stepWith_of_no_event {c : Config} {s : State} (hx : selectEvent s.arrive = none) :
    stepWith c s = .next (s.arrive.withOutput none) := by
  simp [stepWith, hx, unchanged]

/-- A step runs the code of the event chosen, on the state with the event taken (R20). -/
theorem stepWith_of_event {c : Config} {s : State} {x : Code} (hx : selectEvent s.arrive = some x) :
    stepWith c s = runCode c x (s.arrive.take x) := by
  rw [stepWith, hx]
  rfl

/-- A step that answers a next state waits, or takes a selected event. -/
theorem stepWith_cases {c : Config} {s t : State} (h : stepWith c s = .next t) :
    t = s.arrive.withOutput none ∨
    ∃ x, Selected s.arrive x ∧ runCode c x (s.arrive.take x) = .next t := by
  cases hx : selectEvent s.arrive with
  | none => exact .inl (Host.Outcome.next.inj (h.symm.trans (stepWith_of_no_event hx)))
  | some x => exact .inr ⟨x, selected_of_selectEvent hx, (stepWith_of_event hx).symm.trans h⟩

theorem runCode_reset (c : Config) (s : State) : runCode c .resetEvent s = .next (resetBlock s) := rfl

theorem runCode_deadline (c : Config) (s : State) : runCode c .deadlineEvent s = deadlineExpired s := rfl

theorem runCode_txReady (c : Config) (s : State) : runCode c .txReadyEvent s = transmitByte c s := rfl

theorem runCode_tau (c : Config) (s : State) : runCode c .tauEvent s = classifyFrame c s := rfl

/-- The class of a byte names it, when it is no OTHER (R105). -/
theorem byteClass_cases (b : Byte) :
    (b = STX ∧ byteClass b = .stx) ∨ (b = ETX ∧ byteClass b = .etx) ∨ (b = CR ∧ byteClass b = .cr) ∨
    ((b ≠ STX ∧ b ≠ ETX ∧ b ≠ CR) ∧ byteClass b = .other) := by
  by_cases hstx : b = STX
  · exact .inl ⟨hstx, by simp [byteClass, hstx]⟩
  by_cases hetx : b = ETX
  · exact .inr (.inl ⟨hetx, by subst hetx; rfl⟩)
  by_cases hcr : b = CR
  · exact .inr (.inr (.inl ⟨hcr, by subst hcr; rfl⟩))
  · exact .inr (.inr (.inr ⟨⟨hstx, hetx, hcr⟩, by simp [byteClass, hstx, hetx, hcr]⟩))

/-- The row of a state and a byte has the action that the recognizer's function has there (R164). -/
theorem exists_row_action (c : Config) (st : RxState) (b : Byte) :
    ∃ act, (∀ s, execWith c (decodeByte8 st b) s = rxTransition st act s) ∧
      ∀ s, s.rxState = st → act s = recognize c b s := by
  rcases byteClass_cases b with ⟨rfl, -⟩ | ⟨rfl, -⟩ | ⟨rfl, -⟩ | ⟨⟨hstx, hetx, hcr⟩, hb⟩
  case inr.inr.inr =>
    unfold decodeByte8
    rw [hb]
    cases st <;> exact ⟨_, fun _ => rfl, fun s hr => by simp [recognize, hr, hstx, hetx, hcr]⟩
  all_goals cases st <;> exact ⟨_, fun _ => rfl, fun s hr => by simp only [recognize, hr]; rfl⟩

/-- The twelve rows are the recognizer's function, each where it is selected (R164). -/
theorem execWith_decodeByte8 {c : Config} {s : State} (b : Byte) (hs : s.seqState = .awaitingFrame) :
    execWith c (decodeByte8 s.rxState b) s = .next ((recognize c b s).withOutput none) := by
  obtain ⟨act, hrow, hact⟩ := exists_row_action c s.rxState b
  rw [hrow, rxTransition_eq, if_pos ⟨hs, rfl⟩, hact s rfl]

theorem runCode_byte {c : Config} {a : State} (x : Code) (b : Byte) (hs : a.seqState = .awaitingFrame) :
    runCode c (.byte8 a.rxState b) (a.take x) = .next ((recognize c b (a.take x)).withOutput none) :=
  execWith_decodeByte8 (s := a.take x) b hs

/-- Whichever row a request's code selects, it starts an exchange (R261). -/
theorem runCode_request (c : Config) (w : BitVec 24) (p : Payload) :
    ∃ k, ∀ s, runCode c (.cmd24 w (.request p)) s = exchangeStart c k p s := by
  simp only [runCode, decode, decodeCmd24]
  cases decodeCommand w with
  | none => exact ⟨_, fun _ => rfl⟩
  | some m => exact ⟨_, fun s => execWith_commandInstr c m (spellingOf w) (.request p) s⟩

/-- A meaning that answers the same output in every state, none of them `Done`, and changes nothing else. -/
def OnlyAnswers (meaning : State → Host.Outcome State Fault Refusal) : Prop :=
  ∃ o, o ≠ some Output.done ∧ ∀ s, meaning s = .next (s.withOutput o)

theorem onlyAnswers_giveValue (v : Value) : OnlyAnswers (giveValue v) := ⟨_, by simp, fun _ => rfl⟩

theorem onlyAnswers_decodeHexdigit8 (c : Config) (b : Byte) :
    OnlyAnswers (execWith c (decodeHexdigit8 c b)) := by
  unfold decodeHexdigit8
  repeat' split
  all_goals exact onlyAnswers_giveValue _

theorem onlyAnswers_decodeErrcode16 (c : Config) (e : Word) :
    OnlyAnswers (execWith c (decodeErrcode16 e)) := by
  unfold decodeErrcode16
  split
  all_goals exact onlyAnswers_giveValue _

theorem onlyAnswers_cmdField (c : Config) (w : BitVec 24) : OnlyAnswers (runCode c (.cmd24 w .dispatch)) := by
  unfold runCode
  simp only [decode, decodeCmd24]
  cases decodeCommand w with
  | none => exact onlyAnswers_giveValue _
  | some m =>
    simp only [execWith_commandInstr]
    exact onlyAnswers_giveValue _

theorem decodeFrameCode_ok {f : List Byte} {i : Instr} (h : decodeFrameCode f = .ok i) :
    ∃ k d, i = .frame k d := by
  unfold decodeFrameCode at h
  repeat' split at h
  all_goals cases h
  exact ⟨_, _, rfl⟩

theorem onlyAnswers_frame (c : Config) (f : List Byte) : OnlyAnswers (runCode c (.frameCode f)) := by
  unfold runCode
  cases h : decodeFrameCode f with
  | error r =>
    simp only [decode, h]
    exact onlyAnswers_giveValue _
  | ok i =>
    obtain ⟨k, d, rfl⟩ := decodeFrameCode_ok h
    simp only [decode, h]
    exact onlyAnswers_giveValue _

theorem execEncode_of_ok {c : Config} {k : Cmd} {p : Payload} {f : List Byte} (h : encodeFrame c k p = .ok f)
    (s : State) : execEncode k p s c = .next (s.withOutput (some (.returned (.bytes f)))) := by
  simp [execEncode, h, giveValue]

theorem execEncode_of_error {c : Config} {k : Cmd} {p : Payload} {r : RefusedReason}
    (h : encodeFrame c k p = .error r) (s : State) :
    execEncode k p s c = .next (s.withOutput (some (.refused r))) := by
  simp [execEncode, h]

theorem onlyAnswers_encode (c : Config) (k : Cmd) (p : Payload) :
    OnlyAnswers (runCode c (.encodeCall k p)) := by
  cases h : encodeFrame c k p with
  | ok f => exact ⟨some (.returned (.bytes f)), by simp, fun s => execEncode_of_ok h s⟩
  | error r => exact ⟨some (.refused r), by simp, fun s => execEncode_of_error h s⟩

/-- A call at the model's own port only answers (log entry 9). -/
theorem onlyAnswers_probe (c : Config) (p : Probe) : OnlyAnswers (runCode c (probeCode p)) := by
  cases p with
  | cmdField w => exact onlyAnswers_cmdField c w
  | hexdigit b => exact onlyAnswers_decodeHexdigit8 c b
  | errcode e => exact onlyAnswers_decodeErrcode16 c e
  | frame f => exact onlyAnswers_frame c f
  | encode k p => exact onlyAnswers_encode c k p
  | decode f => exact onlyAnswers_giveValue _

/-! ## What a step changes of the source, the sequencer and the result registers -/

/-- Of the selected events only `Rx`, which AwaitingFrame enables, takes a byte from the source (R69). -/
theorem take_source_of_selected {a : State} {x : Code} (h : Selected a x) :
    (a.take x).env.source = a.env.source ∨
      a.seqState = .awaitingFrame ∧ ∃ b, a.env.source = b :: (a.take x).env.source := by
  cases h with
  | byte b rest hs hsrc => exact .inr ⟨hs, b, by simp [Env.take_source, hsrc]⟩
  | probe p => cases p <;> exact .inl rfl
  | _ => exact .inl rfl

/-- No meaning takes a byte from the source: the event `Rx` has taken it. -/
theorem runCode_source {c : Config} {a t : State} {x : Code} (hx : Selected a x)
    (h : runCode c x (a.take x) = .next t) : t.env.source = (a.take x).env.source := by
  cases hx with
  | reset =>
    rw [runCode_reset] at h
    obtain rfl := Host.Outcome.next.inj h
    rfl
  | deadline =>
    rw [runCode_deadline, deadlineExpired_eq] at h
    obtain rfl := Host.Outcome.next.inj h
    split <;> rfl
  | txReady =>
    rw [runCode_txReady] at h
    rcases transmitByte_eq_next h with ⟨-, rfl⟩ | ⟨-, b, -, -, rfl⟩ <;> rfl
  | byte b rest hs _ =>
    rw [runCode_byte _ b hs] at h
    obtain rfl := Host.Outcome.next.inj h
    simp
  | tau =>
    rw [runCode_tau] at h
    rcases classifyFrame_eq_next h with ⟨-, rfl⟩ | ⟨-, f, -, rfl⟩ <;> rfl
  | request w p =>
    obtain ⟨k, hk⟩ := runCode_request c w p
    rw [hk, exchangeStart_eq] at h
    obtain rfl := Host.Outcome.next.inj h
    repeat' split
    all_goals rfl
  | probe p =>
    obtain ⟨o, -, ho⟩ := onlyAnswers_probe c p
    obtain rfl := Host.Outcome.next.inj ((ho _).symm.trans h)
    rfl

/-- Settles O49: only the event `Rx`, presented in AwaitingFrame, takes a byte. -/
theorem sourceTakenOnlyInAwaitingFrame : Obligations.SourceTakenOnlyInAwaitingFrame := by
  intro c s t h
  rcases stepWith_cases h with rfl | ⟨x, hsel, hrun⟩
  · exact .inl rfl
  · rw [runCode_source hsel hrun]
    exact take_source_of_selected hsel

/-- The moves of the sequencer that an effect can make (R280). -/
theorem Effect.seqState_moves {c : Config} {s t : State} (he : Effect c s t) :
    t.seqState = s.seqState ∨ t.seqState = .idle ∨ (s.seqState = .idle ∧ t.seqState = .sent) ∨
    (s.seqState = .sent ∧ t.seqState = .awaitingFrame) ∨
    (s.seqState = .awaitingFrame ∧ t.seqState = .decoded) := by
  cases he with
  | quiet | discard | stay | stx | etx => exact .inl (by simp [State.withSource])
  | start k p hs _ => exact .inr (.inr (.inl ⟨hs, rfl⟩))
  | send b hs _ _ =>
    by_cases hlast : s.txIdx + 1 = s.txLen
    · exact .inr (.inr (.inr (.inl ⟨hs, if_pos hlast⟩)))
    · exact .inl ((if_neg hlast).trans hs.symm)
  | cr src hs _ => exact .inr (.inr (.inr (.inr ⟨hs, rfl⟩)))
  | classify | deadline | reset => exact .inr (.inl rfl)

/-- Settles O51: neither the environment's move nor the taking of an event moves the sequencer, and each effect
moves it along the protocol's states only. -/
theorem sequencerMoves : Obligations.SequencerMoves := by
  intro c s t h
  rcases stepWith_effect h with ⟨-, rfl⟩ | ⟨x, -, he⟩
  · exact .inl rfl
  · exact he.seqState_moves

/-- From `s` to `t` the result registers are left alone, and no exchange ends (R70). -/
def ResultKept (s t : State) : Prop := t.res = s.res ∧ t.resValid = s.resValid ∧ t.env.output ≠ some .done

/-- From `s` to `t` an exchange ends, which writes the result registers (R274). -/
def ResultWritten (s t : State) : Prop := s.seqState ≠ .idle ∧ t.seqState = .idle ∧ t.env.output = some .done

theorem resultKept_withOutput (s : State) {o : Option Output} (ho : o ≠ some .done) :
    ResultKept s (s.withOutput o) := ⟨rfl, rfl, ho⟩

theorem deadlineExpired_result {s t : State} (h : deadlineExpired s = .next t) :
    ResultKept s t ∨ ResultWritten s t := by
  rw [deadlineExpired_eq] at h
  obtain rfl := Host.Outcome.next.inj h
  split
  · rename_i hs
    exact .inr ⟨by rcases hs with hs | hs <;> simp [hs], rfl, rfl⟩
  · exact .inl (resultKept_withOutput s (by simp))

theorem transmitByte_result {c : Config} {s t : State} (h : transmitByte c s = .next t) : ResultKept s t := by
  rcases transmitByte_eq_next h with ⟨-, rfl⟩ | ⟨-, b, -, -, rfl⟩
  · exact resultKept_withOutput s (by simp)
  · exact ⟨rfl, rfl, by simp⟩

theorem classifyFrame_result {c : Config} {s t : State} (h : classifyFrame c s = .next t) :
    ResultKept s t ∨ ResultWritten s t := by
  rcases classifyFrame_eq_next h with ⟨-, rfl⟩ | ⟨hs, f, -, rfl⟩
  · exact .inl (resultKept_withOutput s (by simp))
  · exact .inr ⟨by simp [hs], rfl, rfl⟩

/-- A request clears the result registers where it starts an exchange, and nowhere else (R261, R262). -/
theorem exchangeStart_result {c : Config} {k : Cmd} {p : Payload} {s t : State}
    (h : exchangeStart c k p s = .next t) :
    ResultKept s t ∨
      t.res = Result.zero ∧ t.resValid = false ∧ s.seqState = .idle ∧ t.seqState = .sent := by
  rw [exchangeStart_eq] at h
  obtain rfl := Host.Outcome.next.inj h
  split
  · exact .inl (resultKept_withOutput s (by simp))
  · rename_i hs
    split
    · exact .inl (resultKept_withOutput s (by simp))
    · exact .inr ⟨rfl, rfl, not_not.mp hs, rfl⟩

/-- What each event does to the result registers: an exchange ends at `Deadline` or `Tau`, and they are cleared
by an accepted request or by `Reset`. -/
theorem runCode_result {c : Config} {a t : State} {x : Code} (hx : Selected a x)
    (h : runCode c x (a.take x) = .next t) :
    ResultKept a t ∨ ResultWritten a t ∨
    (t.res = Result.zero ∧ t.resValid = false ∧
      ((a.seqState = .idle ∧ t.seqState = .sent) ∨ a.env.resetStrobe = true)) := by
  cases hx with
  | reset hr =>
    rw [runCode_reset] at h
    obtain rfl := Host.Outcome.next.inj h
    exact .inr (.inr ⟨rfl, rfl, .inr hr⟩)
  | deadline =>
    rw [runCode_deadline] at h
    exact (deadlineExpired_result h).imp_right .inl
  | txReady =>
    rw [runCode_txReady] at h
    exact .inl (transmitByte_result (s := a.take .txReadyEvent) h)
  | byte b rest hs _ =>
    rw [runCode_byte _ b hs] at h
    obtain rfl := Host.Outcome.next.inj h
    exact .inl ⟨by simp, by simp, by simp⟩
  | tau =>
    rw [runCode_tau] at h
    exact (classifyFrame_result h).imp_right .inl
  | request w p =>
    obtain ⟨k, hk⟩ := runCode_request c w p
    rcases exchangeStart_result ((hk _).symm.trans h) with hkept | ⟨hres, hvalid, hidle, hsent⟩
    · exact .inl hkept
    · exact .inr (.inr ⟨hres, hvalid, .inl ⟨hidle, hsent⟩⟩)
  | probe p =>
    obtain ⟨o, hdone, ho⟩ := onlyAnswers_probe c p
    obtain rfl := Host.Outcome.next.inj ((ho _).symm.trans h)
    exact .inl (resultKept_withOutput _ hdone)

/-- Settles O52, by the event that the step takes. -/
theorem resultChangesOnlyAtTheEnd : Obligations.ResultChangesOnlyAtTheEnd := by
  intro c s t h
  rcases stepWith_cases h with rfl | ⟨x, hsel, hrun⟩
  · exact .inl (resultKept_withOutput s.arrive (by simp))
  · exact runCode_result hsel hrun

/-! ## What the host reads -/

/-- `seq_state` is read as its code of R21, and as no other. -/
theorem seqCode_eq_iff (q : SeqState) :
    ∀ x ∈ [(SeqState.idle, 0), (.sent, 1), (.awaitingFrame, 2), (.decoded, 3)],
      (seqCode q).toNat = x.2 ↔ q = x.1 := by
  cases q <;> decide

/-- `rx_state` is read as its code of R22, and as no other. -/
theorem rxCode_eq_iff (r : RxState) :
    ∀ x ∈ [(RxState.awaitingStart, 0), (.awaitingEnd, 1), (.awaitingTerminator, 2)],
      (rxCode r).toNat = x.2 ↔ r = x.1 := by
  cases r <;> decide

/-- The encoding 3 is not written (R22). -/
theorem rxCode_ne_three (r : RxState) : rxCode r ≠ 3 := by
  cases r <;> decide

/-- `res_kind` is read as its code of R30, and as no other. -/
theorem kindCode_eq_iff (k : ResKind) :
    ∀ x ∈ [(ResKind.none, 0), (.success, 1), (.deviceError, 2), (.frameError, 3), (.timeout, 4)],
      (kindCode k).toNat = x.2 ↔ k = x.1 := by
  cases k <;> decide

/-- The encodings 5 to 7 are not written (R30). -/
theorem kindCode_le (k : ResKind) : (kindCode k).toNat ≤ 4 := by
  cases k <;> decide

/-- `res_cause` is read as its code of R31, and as no other. -/
theorem causeCode_eq_iff (e : Cause) :
    ∀ x ∈ [(Cause.none, 0), (.overflow, 1), (.tooShort, 2), (.badStart, 3), (.badTerminator, 4),
        (.badEtx, 5), (.unknownCommand, 6), (.lengthMismatch, 7), (.checksumMismatch, 8),
        (.badHexDigit, 9), (.echoMismatch, 10)],
      (causeCode e).toNat = x.2 ↔ e = x.1 := by
  cases e <;> decide

/-- The encodings 11 to 15 are not written (R31). -/
theorem causeCode_le (e : Cause) : (causeCode e).toNat ≤ 10 := by
  cases e <;> decide

/-- A counter below 8 fits its three bits (R44). -/
theorem toNat_ofNat_three {n : Nat} (h : n < 8) : (BitVec.ofNat 3 n).toNat = n := by
  rw [BitVec.toNat_ofNat]
  exact Nat.mod_eq_of_lt h

/-- The counters of the result registers are in the range of their widths (R42). -/
theorem Inv.result_ranges {c : Config} {s : State} (h : Inv c s) :
    s.res.nwords ≤ 6 ∧ s.res.msg ≤ 7 ∧ s.res.expLen ≤ c.rxCap ∧ s.res.actLen ≤ c.rxCap := by
  obtain ⟨-, -, -, -, -, -, -, hranges⟩ := h.result
  exact hranges

/-! ## What RXBUF holds does not show outside Decoded -/

/-- The state with another receive buffer. -/
def State.withRxBuf (s : State) (m : Memory) : State := { s with rxBuf := m }

/-- In the state `s` nothing of a meaning but RXBUF depends on RXBUF (R37, R70). -/
def IgnoresRxBuf (meaning : State → Host.Outcome State Fault Refusal) (s : State) : Prop :=
  ∀ (t : State) (m : Memory), meaning s = .next t →
    ∃ m', meaning (s.withRxBuf m) = .next (t.withRxBuf m')

theorem OnlyAnswers.ignoresRxBuf {meaning : State → Host.Outcome State Fault Refusal} (h : OnlyAnswers meaning)
    (s : State) : IgnoresRxBuf meaning s := by
  obtain ⟨o, -, ho⟩ := h
  intro t m ht
  obtain rfl := Host.Outcome.next.inj ((ho s).symm.trans ht)
  exact ⟨m, ho _⟩

theorem resetBlock_ignoresRxBuf (c : Config) (s : State) : IgnoresRxBuf (runCode c .resetEvent) s := by
  intro t m ht
  obtain rfl := Host.Outcome.next.inj ht
  exact ⟨State.reset.rxBuf, rfl⟩

theorem deadlineExpired_ignoresRxBuf (s : State) : IgnoresRxBuf deadlineExpired s := by
  intro t m ht
  rw [deadlineExpired_eq] at ht
  obtain rfl := Host.Outcome.next.inj ht
  refine ⟨m, (deadlineExpired_eq _).trans ?_⟩
  rw [apply_ite (fun u => State.withRxBuf u m)]
  rfl

theorem transmitByte_ignoresRxBuf (c : Config) (s : State) : IgnoresRxBuf (transmitByte c) s := by
  intro t m ht
  rcases transmitByte_eq_next ht with ⟨hs, rfl⟩ | ⟨hs, b, hb, hc, rfl⟩
  · exact ⟨m, if_neg hs⟩
  · exact ⟨m, transmitByte_sent (s := s.withRxBuf m) hs hc hb⟩

theorem exchangeStart_ignoresRxBuf (c : Config) (k : Cmd) (p : Payload) (s : State) :
    IgnoresRxBuf (exchangeStart c k p) s := by
  intro t m ht
  rw [exchangeStart_eq] at ht
  obtain rfl := Host.Outcome.next.inj ht
  refine ⟨m, (exchangeStart_eq c k p _).trans ?_⟩
  rw [apply_ite (fun u => State.withRxBuf u m), apply_ite (fun u => State.withRxBuf u m)]
  rfl

theorem keep_withRxBuf (c : Config) (b : Byte) (s : State) (m : Memory) :
    ∃ m', keep c b (s.withRxBuf m) = (keep c b s).withRxBuf m' := by
  by_cases hroom : s.rxLen < c.rxCap
  · exact ⟨Memory.write m s.rxLen b, by simp [keep, State.withRxBuf, hroom]⟩
  · exact ⟨m, by simp [keep, State.withRxBuf, hroom]⟩

theorem preamble_withRxBuf (c : Config) (b : Byte) (s : State) (m : Memory) :
    ∃ m', preamble c b (s.withRxBuf m) = (preamble c b s).withRxBuf m' := by
  unfold preamble
  split
  · exact keep_withRxBuf c b s m
  · exact ⟨m, rfl⟩

/-- What the recognizer does is decided by its state and the byte, not by the bytes it has kept (R164). -/
theorem recognize_withRxBuf (c : Config) (b : Byte) (s : State) (m : Memory) :
    ∃ m', recognize c b (s.withRxBuf m) = (recognize c b s).withRxBuf m' := by
  obtain ⟨mk, hk⟩ := keep_withRxBuf c b s m
  obtain ⟨mp, hp⟩ := preamble_withRxBuf c b s m
  have hr : (s.withRxBuf m).rxState = s.rxState := rfl
  unfold recognize
  rw [hr, hk, hp]
  cases s.rxState with
  | awaitingStart =>
    by_cases hb : b = STX
    · exact ⟨mk, by simp [hb, State.withRxBuf]⟩
    · exact ⟨mp, by simp [hb]⟩
  | awaitingEnd => exact ⟨mk, by by_cases hb : b = ETX <;> simp [hb, State.withRxBuf]⟩
  | awaitingTerminator => exact ⟨mk, by by_cases hb : b = CR <;> simp [hb, State.withRxBuf, frameComplete]⟩

/-- Outside Decoded every selected event does the same whatever RXBUF holds: only `Tau` reads it. -/
theorem runCode_ignoresRxBuf {c : Config} {a : State} {x : Code} (hx : Selected a x)
    (hs : a.seqState ≠ .decoded) : IgnoresRxBuf (runCode c x) (a.take x) := by
  cases hx with
  | reset => exact resetBlock_ignoresRxBuf c _
  | deadline => exact deadlineExpired_ignoresRxBuf _
  | txReady => exact transmitByte_ignoresRxBuf c _
  | byte b rest hs _ =>
    intro t m ht
    rw [runCode_byte _ b hs] at ht
    obtain rfl := Host.Outcome.next.inj ht
    obtain ⟨m', hm⟩ := recognize_withRxBuf c b (a.take (.byte8 a.rxState b)) m
    exact ⟨m', (runCode_byte (a := a.withRxBuf m) _ b hs).trans
      (congrArg (fun u => Host.Outcome.next (State.withOutput u none)) hm)⟩
  | tau hd => exact absurd hd hs
  | request w p =>
    obtain ⟨k, hk⟩ := runCode_request c w p
    rw [funext hk]
    exact exchangeStart_ignoresRxBuf c k p _
  | probe p => exact (onlyAnswers_probe c p).ignoresRxBuf _

/-- The event chosen does not depend on RXBUF, and outside Decoded what it does does not either. -/
theorem stepWith_ignoresRxBuf {c : Config} {s : State} (hs : s.seqState ≠ .decoded) :
    IgnoresRxBuf (stepWith c) s := by
  intro t m ht
  cases hx : selectEvent s.arrive with
  | none =>
    rw [stepWith_of_no_event hx] at ht
    obtain rfl := Host.Outcome.next.inj ht
    exact ⟨m, stepWith_of_no_event (s := s.withRxBuf m) hx⟩
  | some x =>
    rw [stepWith_of_event hx] at ht
    obtain ⟨m', hm⟩ := runCode_ignoresRxBuf (selected_of_selectEvent hx) hs t m ht
    exact ⟨m', (stepWith_of_event (s := s.withRxBuf m) hx).trans hm⟩

/-- Settles O55: each item by the range that the invariant gives it, and RXBUF by the event a step takes. -/
theorem hostViewIsExact : Obligations.HostViewIsExact := by
  refine ⟨fun c s h => ?_, rfl, fun c s t m hs hstep => stepWith_ignoresRxBuf hs t m hstep⟩
  obtain ⟨hwords, hmsg, hexp, hact⟩ := h.result_ranges
  exact
    ⟨⟨rfl, rfl, seqCode_eq_iff s.seqState, rxCode_eq_iff s.rxState, rxCode_ne_three s.rxState⟩,
     ⟨kindCode_eq_iff s.res.kind, kindCode_le s.res.kind⟩,
     ⟨causeCode_eq_iff s.res.cause, causeCode_le s.res.cause⟩,
     toNat_ofNat_three (by omega), toNat_ofNat_three (by omega),
     toNat_ofNat_lengthWidth hexp, toNat_ofNat_lengthWidth hact, rfl, rfl, rfl, rfl, rfl⟩

end Sys2Proof.Machine

/-! PROOFS. The encoding and what is laid out in bytes: the frame and its fields, the four formats of a code in both
directions, the hex converters and the payloads, and the bytes that a run of SENDs gives to the sink. -/

namespace Sys2Proof.Machine

/-! ## A frame and its fields (R64, R181) -/

/-- Eight or more bytes, cut where R64 puts the fields of a frame: the bytes in the places of STX, CMD, DATA, ETX,
CHK and CR, whatever they are. -/
def framed (a : Byte) (k : Cmd) (d : List Byte) (e : Byte) (p : CharPair) (z : Byte) : List Byte :=
  a :: k.toList ++ d ++ (e :: p.toList ++ [z])

/-- A frame is STX, ETX and CR in their places, with the checksum of its body in CHK (R64, R95). -/
theorem frameBytes_eq_framed (k : Cmd) (d : List Byte) :
    frameBytes k d = framed STX k d ETX (hexPair (chk (frameBody k d))) CR := by
  simp [frameBytes, frameBody, framed]

/-- Every byte sequence of at least 8 bytes has the fields of a frame (R91). -/
theorem exists_framed {f : List Byte} (h : 8 ≤ f.length) : ∃ a k d e p z, f = framed a k d e p z := by
  match f, h with
  | a :: b0 :: b1 :: b2 :: rest, h =>
    simp only [List.length_cons] at h
    obtain ⟨e, c1, c2, z, htail⟩ := List.length_eq_four.mp
      (show (rest.drop (rest.length - 4)).length = 4 by rw [List.length_drop]; omega)
    refine ⟨a, ⟨b0, b1, b2⟩, rest.take (rest.length - 4), e, ⟨c1, c2⟩, z, ?_⟩
    conv_lhs => rw [← List.take_append_drop (rest.length - 4) rest, htail]
    rfl

/-- The byte behind a front part. -/
theorem byteAt_append_cons {pre post f : List Byte} {x : Byte} {i : Nat} (hf : f = pre ++ x :: post)
    (hi : i = pre.length) : byteAt f i = x := by
  subst hf hi
  simp [byteAt]

/-- The bytes between a front part and a rest. -/
theorem slice_append {pre mid post f : List Byte} {i j : Nat} (hf : f = pre ++ (mid ++ post))
    (hi : i = pre.length) (hj : j = pre.length + mid.length) : slice f i j = mid := by
  subst hf hi hj
  simp [slice]

section
variable (a : Byte) (k : Cmd) (d : List Byte) (e : Byte) (p : CharPair) (z : Byte)

@[simp] theorem framed_length : (framed a k d e p z).length = 8 + d.length := by
  simp [framed, Cmd.toList, CharPair.toList]
  omega

@[simp] theorem byteAt_framed_start : byteAt (framed a k d e p z) 0 = a := rfl

@[simp] theorem slice_framed_cmd : slice (framed a k d e p z) 1 4 = k.toList := rfl

@[simp] theorem cmdField_framed : cmdField (framed a k d e p z) = k := rfl

@[simp] theorem dataField_framed : dataField (framed a k d e p z) = d :=
  slice_append (pre := a :: k.toList) (post := e :: p.toList ++ [z]) (by simp [framed]) rfl
    (by simp [Cmd.toList]; omega)

@[simp] theorem byteAt_framed_etx : byteAt (framed a k d e p z) (4 + d.length) = e :=
  byteAt_append_cons (pre := a :: k.toList ++ d) (post := p.toList ++ [z]) rfl (by simp [Cmd.toList]; omega)

@[simp] theorem chkField_framed : chkField (framed a k d e p z) = p := by
  have hfirst : byteAt (framed a k d e p z) (5 + d.length) = p.first :=
    byteAt_append_cons (pre := a :: k.toList ++ d ++ [e]) (post := [p.second, z])
      (by simp [framed, CharPair.toList]) (by simp [Cmd.toList]; omega)
  have hsecond : byteAt (framed a k d e p z) (6 + d.length) = p.second :=
    byteAt_append_cons (pre := a :: k.toList ++ d ++ [e, p.first]) (post := [z])
      (by simp [framed, CharPair.toList]) (by simp [Cmd.toList]; omega)
  rw [chkField, framed_length, show 8 + d.length - 3 = 5 + d.length by omega,
    show 8 + d.length - 2 = 6 + d.length by omega, hfirst, hsecond]

@[simp] theorem byteAt_framed_terminator : byteAt (framed a k d e p z) (7 + d.length) = z :=
  byteAt_append_cons (pre := a :: k.toList ++ d ++ e :: p.toList) (post := []) (by simp [framed])
    (by simp [Cmd.toList, CharPair.toList]; omega)

@[simp] theorem slice_framed_body :
    slice (framed a k d e p z) 0 (5 + d.length) = a :: k.toList ++ d ++ [e] :=
  slice_append (pre := []) (post := p.toList ++ [z]) (by simp [framed]) rfl (by simp [Cmd.toList]; omega)

@[simp] theorem slice_framed_chk :
    slice (framed a k d e p z) (5 + d.length) (7 + d.length) = p.toList :=
  slice_append (pre := a :: k.toList ++ d ++ [e]) (post := [z]) (by simp [framed])
    (by simp [Cmd.toList]; omega) (by simp [Cmd.toList, CharPair.toList]; omega)

end

/-- The frame of its fields is laid out as R64 says. -/
theorem frameLayout_frameBytes (k : Cmd) (d : List Byte) : FrameLayout k d (frameBytes k d) := by
  have hetx : 8 + d.length - 4 = 4 + d.length := by omega
  have hchk : 8 + d.length - 3 = 5 + d.length := by omega
  have hcr : 8 + d.length - 1 = 7 + d.length := by omega
  have hdata := dataField_framed STX k d ETX (hexPair (chk (frameBody k d))) CR
  rw [dataField, framed_length, hetx] at hdata
  simp only [FrameLayout, frameBytes_eq_framed, framed_length, hetx, hchk, hcr, byteAt_framed_start,
    slice_framed_cmd, hdata, byteAt_framed_etx, slice_framed_chk, slice_framed_body, byteAt_framed_terminator]
  exact ⟨trivial, rfl, trivial, trivial, rfl, rfl, rfl⟩

/-- Settles O9: FRAME answers the bytes of its fields, which are laid out as R64 says. -/
theorem frameCompletes : Obligations.FrameCompletes :=
  fun k d _ => ⟨frameLayout_frameBytes k d, rfl⟩

/-! ## FRAME in both directions -/

/-- The checks of the format FRAME, on the fields of the byte sequence. -/
theorem decodeFrameCode_framed (a : Byte) (k : Cmd) (d : List Byte) (e : Byte) (p : CharPair) (z : Byte) :
    decodeFrameCode (framed a k d e p z) =
      if a ≠ STX then .error .frameBadStart
      else if z ≠ CR then .error .frameBadTerminator
      else if e ≠ ETX then .error .frameBadEtx
      else if p ≠ hexPair (chk (a :: k.toList ++ d ++ [e])) then .error .frameBadChecksum
      else .ok (.frame k d) := by
  have hlong : ¬ 8 + d.length < 8 := by omega
  rw [decodeFrameCode, framed_length, if_neg hlong, show 8 + d.length - 1 = 7 + d.length by omega,
    show 8 + d.length - 4 = 4 + d.length by omega, show 8 + d.length - 3 = 5 + d.length by omega]
  simp only [byteAt_framed_start, byteAt_framed_terminator, byteAt_framed_etx, chkField_framed,
    slice_framed_body, cmdField_framed, dataField_framed]

theorem decodeFrameCode_frameBytes (k : Cmd) (d : List Byte) :
    decodeFrameCode (frameBytes k d) = .ok (.frame k d) := by
  rw [frameBytes_eq_framed, decodeFrameCode_framed]
  simp [frameBody]

/-- A byte sequence read as a frame is the frame of the fields read (R64, R95). -/
theorem eq_frameBytes_of_decodeFrameCode {f : List Byte} {i : Instr} (h : decodeFrameCode f = .ok i) :
    ∃ k d, i = .frame k d ∧ f = frameBytes k d := by
  have hlen : 8 ≤ f.length := by
    by_contra hshort
    simp [decodeFrameCode, show f.length < 8 by omega] at h
  obtain ⟨a, k, d, e, p, z, rfl⟩ := exists_framed hlen
  rw [decodeFrameCode_framed] at h
  repeat' split at h
  all_goals cases h
  rename_i ha hz he hp
  obtain rfl := not_not.mp ha
  obtain rfl := not_not.mp hz
  obtain rfl := not_not.mp he
  obtain rfl := not_not.mp hp
  exact ⟨k, d, rfl, (frameBytes_eq_framed k d).symm⟩

/-! ## CMD24 in both directions (R106) -/

@[simp] theorem cmdOfBits_cmdToBits (k : Cmd) : cmdOfBits (cmdToBits k) = k := by
  have h1 : (cmdToBits k).extractLsb' 16 8 = k.b0 :=
    (BitVec.extractLsb'_append_eq_of_le (by decide)).trans BitVec.extractLsb'_append_eq_left
  have h2 : (cmdToBits k).extractLsb' 8 8 = k.b1 :=
    (BitVec.extractLsb'_append_eq_of_le (by decide)).trans BitVec.extractLsb'_append_eq_right
  have h3 : (cmdToBits k).extractLsb' 0 8 = k.b2 := BitVec.extractLsb'_append_eq_right
  rw [cmdOfBits, h1, h2, h3]

@[simp] theorem cmdToBits_cmdOfBits (w : BitVec 24) : cmdToBits (cmdOfBits w) = w := by
  have hhigh : w.extractLsb' 16 8 ++ w.extractLsb' 8 8 = w.extractLsb' 8 16 :=
    BitVec.extractLsb'_append_extractLsb'_eq_extractLsb' rfl
  have hall : w.extractLsb' 8 16 ++ w.extractLsb' 0 8 = w.extractLsb' 0 24 :=
    BitVec.extractLsb'_append_extractLsb'_eq_extractLsb' rfl
  rw [cmdToBits, cmdOfBits, hhigh, hall, BitVec.extractLsb'_eq_self]

/-- The case bits of a pattern are what the mask clears. -/
theorem spellingBits_spellingOf (w : BitVec 24) : spellingBits (spellingOf w) = w &&& 0x202020 := by
  have h0 := BitVec.and_twoPow w 21
  have h1 := BitVec.and_twoPow w 13
  have h2 := BitVec.and_twoPow w 5
  calc spellingBits (spellingOf w)
    _ = w &&& BitVec.twoPow 24 21 ||| w &&& BitVec.twoPow 24 13 ||| w &&& BitVec.twoPow 24 5 := by
        rw [h0, h1, h2]; rfl
    _ = w &&& 0x202020 := by rw [← BitVec.and_or_distrib_left, ← BitVec.and_or_distrib_left]; rfl

theorem and_cmdMask_or_spellingBits (w : BitVec 24) : w &&& cmdMask ||| spellingBits (spellingOf w) = w := by
  rw [spellingBits_spellingOf, ← BitVec.and_or_distrib_left]
  exact BitVec.and_allOnes

@[simp] theorem spellingBits_and_cmdMask (sp : Spelling) : spellingBits sp &&& cmdMask = 0 := by
  obtain ⟨_ | _, _ | _, _ | _⟩ := sp <;> rfl

@[simp] theorem spellingOf_spellingBits (sp : Spelling) : spellingOf (spellingBits sp) = sp := by
  obtain ⟨_ | _, _ | _, _ | _⟩ := sp <;> rfl

@[simp] theorem commandMatch_and_cmdMask (m : Command) : commandMatch m &&& cmdMask = commandMatch m := by
  cases m <;> rfl

theorem spellingOf_commandMatch (m : Command) : spellingOf (commandMatch m) = ⟨false, false, false⟩ := by
  cases m <;> rfl

/-- The mask takes the case bits from a command's bits and leaves its pattern. -/
@[simp] theorem commandBits_and_cmdMask (m : Command) (sp : Spelling) :
    commandBits m sp &&& cmdMask = commandMatch m := by
  rw [commandBits, BitVec.and_comm, BitVec.and_or_distrib_left, BitVec.and_comm, commandMatch_and_cmdMask,
    BitVec.and_comm, spellingBits_and_cmdMask]
  exact BitVec.or_zero

@[simp] theorem spellingOf_commandBits (m : Command) (sp : Spelling) : spellingOf (commandBits m sp) = sp := by
  have hm := spellingOf_commandMatch m
  have hsp := spellingOf_spellingBits sp
  simp only [spellingOf, Spelling.mk.injEq] at hm
  simpa only [spellingOf, commandBits, BitVec.getLsbD_or, hm, Bool.false_or] using hsp

/-- The row of a pattern is the one whose M its masked bits are (R106): no two rows share an M. -/
theorem decodeCommand_eq_some_iff {w : BitVec 24} {m : Command} :
    decodeCommand w = some m ↔ w &&& cmdMask = commandMatch m := by
  constructor
  · intro h
    simpa using List.find?_some h
  · intro h
    rw [decodeCommand, h]
    cases m <;> rfl

/-- The patterns of a row are its 8 spellings. -/
theorem decodeCommand_eq_some_iff_spelling {w : BitVec 24} {m : Command} :
    decodeCommand w = some m ↔ ∃ sp, w = commandBits m sp := by
  rw [decodeCommand_eq_some_iff]
  constructor
  · intro h
    exact ⟨spellingOf w, by rw [commandBits, ← h, and_cmdMask_or_spellingBits]⟩
  · rintro ⟨sp, rfl⟩
    exact commandBits_and_cmdMask m sp

@[simp] theorem decodeCommand_commandBits (m : Command) (sp : Spelling) :
    decodeCommand (commandBits m sp) = some m :=
  decodeCommand_eq_some_iff_spelling.mpr ⟨sp, rfl⟩

theorem encode_commandInstr (m : Command) (sp : Spelling) (u : CmdUse) :
    encode (commandInstr m sp u) = .cmd24 (commandBits m sp) u := by
  cases m <;> rfl

theorem wf_commandInstr (c : Config) (m : Command) (sp : Spelling) (u : CmdUse) :
    (commandInstr m sp u).wf c = true := by
  cases m <;> rfl

/-- A command's row is read back from each of its spellings. -/
theorem decodeCmd24_commandBits (m : Command) (sp : Spelling) (u : CmdUse) :
    decodeCmd24 (commandBits m sp) u = .ok (commandInstr m sp u) := by
  simp [decodeCmd24]

/-! ## The codes without a row of their own (log entry 8) -/

/-- The bit that tells the lowercase letter from the uppercase one (R98). -/
def caseBit (low : Bool) : Byte := if low then 0x20 else 0

/-- A byte folds to the same letter as an uppercase letter when it is that letter in either case. -/
theorem lowerByte_eq_lowerByte_iff {b u : Byte} (hu : 0x41 ≤ u.toNat ∧ u.toNat ≤ 0x5A) (hbit : u &&& 0x20 = 0) :
    lowerByte b = lowerByte u ↔ ∃ low, b = u ||| caseBit low := by
  have hor : u ||| caseBit true = u + 0x20 := (BitVec.add_eq_or_of_and_eq_zero u 0x20 hbit).symm
  have hzero : u ||| caseBit false = u := BitVec.or_zero
  rw [Bool.exists_bool, hor, hzero, lowerByte, lowerByte, if_pos hu]
  split
  · bv_omega
  · bv_omega

/-- The three bytes of a command's pattern are uppercase letters (R96). -/
theorem commandMatch_letters (m : Command) :
    ∀ u ∈ (cmdOfBits (commandMatch m)).toList, (0x41 ≤ u.toNat ∧ u.toNat ≤ 0x5A) ∧ u &&& 0x20 = 0 := by
  cases m <;> decide

theorem cmdOfBits_commandBits (m : Command) (sp : Spelling) :
    cmdOfBits (commandBits m sp) =
      ⟨(cmdOfBits (commandMatch m)).b0 ||| caseBit sp.low0, (cmdOfBits (commandMatch m)).b1 ||| caseBit sp.low1,
        (cmdOfBits (commandMatch m)).b2 ||| caseBit sp.low2⟩ := by
  have hsp : cmdOfBits (spellingBits sp) = ⟨caseBit sp.low0, caseBit sp.low1, caseBit sp.low2⟩ := by
    obtain ⟨_ | _, _ | _, _ | _⟩ := sp <;> rfl
  simp only [cmdOfBits, Cmd.mk.injEq] at hsp
  obtain ⟨h0, h1, h2⟩ := hsp
  simp only [cmdOfBits, commandBits, BitVec.extractLsb'_or, h0, h1, h2]

/-- A code folds to a command's code when it is one of its 8 spellings. -/
theorem lowerCmd_eq_iff_spelling {k : Cmd} {m : Command} :
    lowerCmd k = lowerCmd (cmdOfBits (commandMatch m)) ↔ ∃ sp, k = cmdOfBits (commandBits m sp) := by
  obtain ⟨⟨hu0, hbit0⟩, ⟨hu1, hbit1⟩, ⟨hu2, hbit2⟩⟩ := by
    simpa only [Cmd.toList, List.forall_mem_cons, List.not_mem_nil, false_implies, implies_true, and_true]
      using commandMatch_letters m
  obtain ⟨b0, b1, b2⟩ := k
  simp only [lowerCmd, cmdOfBits_commandBits, Cmd.mk.injEq, lowerByte_eq_lowerByte_iff hu0 hbit0,
    lowerByte_eq_lowerByte_iff hu1 hbit1, lowerByte_eq_lowerByte_iff hu2 hbit2]
  constructor
  · rintro ⟨⟨l0, h0⟩, ⟨l1, h1⟩, ⟨l2, h2⟩⟩
    exact ⟨⟨l0, l1, l2⟩, h0, h1, h2⟩
  · rintro ⟨⟨l0, l1, l2⟩, h0, h1, h2⟩
    exact ⟨⟨l0, h0⟩, ⟨l1, h1⟩, ⟨l2, h2⟩⟩

/-- A code is one of the 15 when it folds to the code of a row. -/
theorem isSourceCode_iff {k : Cmd} :
    isSourceCode k = true ↔ ∃ m, lowerCmd k = lowerCmd (cmdOfBits (commandMatch m)) := by
  have hcodes : sourceCatalog.map CatalogRow.code =
      allCommands.map (fun m => lowerCmd (cmdOfBits (commandMatch m))) := by decide
  have hall : ∀ m : Command, m ∈ allCommands := by intro m; cases m <;> decide
  rw [isSourceCode, hcodes, List.contains_iff_mem, List.mem_map]
  exact ⟨fun ⟨m, _, h⟩ => ⟨m, h.symm⟩, fun ⟨m, h⟩ => ⟨m, hall m, h.symm⟩⟩

/-- The decoder has a row for a code exactly when it is one of the 15 in any case (R106, R108). -/
theorem decodeCommand_isSome (k : Cmd) : (decodeCommand (cmdToBits k)).isSome = isSourceCode k := by
  rw [Bool.eq_iff_iff, Option.isSome_iff_exists, isSourceCode_iff]
  refine exists_congr fun m => ?_
  rw [decodeCommand_eq_some_iff_spelling, lowerCmd_eq_iff_spelling]
  refine exists_congr fun sp => ⟨fun h => ?_, fun h => ?_⟩
  · rw [← h, cmdOfBits_cmdToBits]
  · rw [h, cmdToBits_cmdOfBits]

/-- A request whose code has no row is an EXCHANGE of its three bytes (R131; log entry 8). -/
theorem decodeCmd24_exchange {k : Cmd} (p : Payload) (h : isSourceCode k = false) :
    decodeCmd24 (cmdToBits k) (.request p) = .ok (.exchange k p) := by
  have hnone : decodeCommand (cmdToBits k) = none := by
    rw [← Option.not_isSome_iff_eq_none, decodeCommand_isSome, h]
    decide
  simp [decodeCmd24, hnone]

/-- What an accepted CMD field stands for: a row in one of its spellings, or an EXCHANGE. -/
theorem decodeCmd24_ok {w : BitVec 24} {u : CmdUse} {i : Instr} (h : decodeCmd24 w u = .ok i) :
    (∃ m sp, w = commandBits m sp ∧ i = commandInstr m sp u) ∨
    (∃ k p, isSourceCode k = false ∧ w = cmdToBits k ∧ u = .request p ∧ i = .exchange k p) := by
  cases hw : decodeCommand w with
  | some m =>
    obtain ⟨sp, rfl⟩ := decodeCommand_eq_some_iff_spelling.mp hw
    rw [decodeCmd24_commandBits] at h
    obtain rfl := Except.ok.inj h
    exact .inl ⟨m, sp, rfl, rfl⟩
  | none =>
    cases u with
    | request p =>
      simp only [decodeCmd24, hw] at h
      obtain rfl := Except.ok.inj h
      refine .inr ⟨cmdOfBits w, p, ?_, (cmdToBits_cmdOfBits w).symm, rfl, rfl⟩
      rw [← decodeCommand_isSome, cmdToBits_cmdOfBits, hw]
      rfl
    | dispatch => simp [decodeCmd24, hw] at h

/-! ## BYTE8, HEXDIGIT8 and ERRCODE16 in both directions (R100, R105, R240) -/

/-- The row of every other byte is read back (R105). -/
theorem decodeByte8_of_other {b : Byte} (h : byteClass b = .other) :
    decodeByte8 .awaitingStart b = .rxStartOther b ∧ decodeByte8 .awaitingEnd b = .rxEndOther b ∧
    decodeByte8 .awaitingTerminator b = .rxTermOther b := by
  simp [decodeByte8, h]

/-- The row that a byte selects is well formed, and is that byte in that state (R164). -/
theorem encode_decodeByte8 (c : Config) (st : RxState) (b : Byte) :
    (decodeByte8 st b).wf c = true ∧ encode (decodeByte8 st b) = .byte8 st b := by
  rcases byteClass_cases b with ⟨rfl, -⟩ | ⟨rfl, -⟩ | ⟨rfl, -⟩ | ⟨-, hb⟩
  case inr.inr.inr =>
    obtain ⟨hstart, hend, hterm⟩ := decodeByte8_of_other hb
    cases st
    · exact hstart ▸ ⟨decide_eq_true hb, rfl⟩
    · exact hend ▸ ⟨decide_eq_true hb, rfl⟩
    · exact hterm ▸ ⟨decide_eq_true hb, rfl⟩
  all_goals cases st <;> exact ⟨rfl, rfl⟩

/-- A character has no digit value when it lies outside the three ranges of R100. -/
theorem hexVal_eq_none_iff {c : Config} {b : Byte} :
    hexVal c b = none ↔ ¬(0x30 ≤ b.toNat ∧ b.toNat ≤ 0x39) ∧ ¬(0x41 ≤ b.toNat ∧ b.toNat ≤ 0x46) ∧
      (0x61 ≤ b.toNat → b.toNat ≤ 0x66 → ¬c.rxHexAcceptLower = true) := by
  unfold hexVal
  split_ifs with hdigit hupper hlower
  · simp [hdigit]
  · simp [hupper]
  · simp [hlower]
  · simp only [true_iff]
    exact ⟨hdigit, hupper, fun h1 h2 h3 => hlower ⟨h1, h2, h3⟩⟩

/-- A character without a digit value is read as one (R100). -/
theorem decodeHexdigit8_of_none {c : Config} {b : Byte} (h : hexVal c b = none) :
    decodeHexdigit8 c b = .hexNone b := by
  obtain ⟨hdigit, hupper, hlower⟩ := hexVal_eq_none_iff.mp h
  unfold decodeHexdigit8
  split
  case h_23 => rfl
  case h_17 | h_18 | h_19 | h_20 | h_21 | h_22 => exact if_neg (hlower (by omega) (by omega))
  all_goals omega

/-- The row of a lowercase letter, or of no digit when the parameter does not allow it, is that character
(R100). -/
theorem encode_lowercase_row {c : Config} {b : Byte} {i : Instr} (hwf : i.wf c = c.rxHexAcceptLower)
    (henc : encode i = .hexdigit8 b) (hb : 0x61 ≤ b.toNat) :
    (if c.rxHexAcceptLower then i else .hexNone b).wf c = true ∧
      encode (if c.rxHexAcceptLower then i else .hexNone b) = .hexdigit8 b := by
  split
  · rename_i hacc
    exact ⟨hwf.trans hacc, henc⟩
  · rename_i hacc
    have hnone : hexVal c b = none := hexVal_eq_none_iff.mpr ⟨by omega, by omega, fun _ _ => hacc⟩
    exact ⟨Option.isNone_iff_eq_none.mpr hnone, rfl⟩

/-- The row that a character selects is well formed, and is that character (R100). -/
theorem encode_decodeHexdigit8 (c : Config) (b : Byte) :
    (decodeHexdigit8 c b).wf c = true ∧ encode (decodeHexdigit8 c b) = .hexdigit8 b := by
  unfold decodeHexdigit8
  split
  case h_23 =>
    simp only [imp_false] at *
    exact ⟨Option.isNone_iff_eq_none.mpr (hexVal_eq_none_iff.mpr ⟨by omega, by omega, by omega⟩), rfl⟩
  case h_17 h | h_18 h | h_19 h | h_20 h | h_21 h | h_22 h =>
    exact encode_lowercase_row rfl (congrArg Code.hexdigit8 (BitVec.eq_of_toNat_eq h.symm)) (by omega)
  all_goals
    rename_i h
    exact ⟨rfl, congrArg Code.hexdigit8 (BitVec.eq_of_toNat_eq h.symm)⟩

theorem msgIndex_eq_zero_iff {e : Word} : msgIndex e = 0 ↔ ¬(1 ≤ e.toNat ∧ e.toNat ≤ 7) := by
  unfold msgIndex
  split <;> omega

/-- A code above the table is read as one (R249). -/
theorem decodeErrcode16_of_unmapped {e : Word} (h : msgIndex e = 0) : decodeErrcode16 e = .errUnmapped e := by
  have hrange := msgIndex_eq_zero_iff.mp h
  unfold decodeErrcode16
  split
  case h_8 => rfl
  all_goals omega

/-- The row that an error code selects is well formed, and is that code (R240, R249). -/
theorem encode_decodeErrcode16 (c : Config) (e : Word) :
    (decodeErrcode16 e).wf c = true ∧ encode (decodeErrcode16 e) = .errcode16 e := by
  unfold decodeErrcode16
  split
  case h_8 =>
    simp only [imp_false] at *
    exact ⟨decide_eq_true (msgIndex_eq_zero_iff.mpr (by omega)), rfl⟩
  all_goals
    rename_i h
    exact ⟨rfl, congrArg Code.errcode16 (BitVec.eq_of_toNat_eq h.symm)⟩

/-! ## The decoder and the encoder -/

/-- Settles O1: FRAME and the commands by their formats, EXCHANGE by having no row, the rows of every other value
by their operand, and the other rows by their one code. -/
theorem decodeOfEncode : Obligations.DecodeOfEncode := by
  intro c i h
  cases i with
  | frame k d => exact decodeFrameCode_frameBytes k d
  | hxx sp u | hpo sp u | hst sp u | hrt sp u | hof sp u | hon sp u | hcm sp u | hre sp u
  | hbv sp u | hgt sp u | hgv sp u | hgc sp u | hgs sp u | hsc sp u | hrc sp u =>
    exact decodeCmd24_commandBits _ sp u
  | exchange k p => exact decodeCmd24_exchange p (by simpa [Instr.wf] using h)
  | rxStartOther b =>
    obtain ⟨hrow, -, -⟩ := decodeByte8_of_other (of_decide_eq_true h)
    exact congrArg Except.ok hrow
  | rxEndOther b =>
    obtain ⟨-, hrow, -⟩ := decodeByte8_of_other (of_decide_eq_true h)
    exact congrArg Except.ok hrow
  | rxTermOther b =>
    obtain ⟨-, -, hrow⟩ := decodeByte8_of_other (of_decide_eq_true h)
    exact congrArg Except.ok hrow
  | hexLowA | hexLowB | hexLowC | hexLowD | hexLowE | hexLowF => exact congrArg Except.ok (if_pos h)
  | hexNone b => exact congrArg Except.ok (decodeHexdigit8_of_none (Option.isNone_iff_eq_none.mp h))
  | errUnmapped e => exact congrArg Except.ok (decodeErrcode16_of_unmapped (of_decide_eq_true h))
  | _ => rfl

/-- Settles O2, format by format; an event or a call stands for one operation. -/
theorem encodeOfDecode : Obligations.EncodeOfDecode := by
  intro c x i h
  cases x with
  | byte8 st b =>
    obtain rfl := Except.ok.inj h
    exact encode_decodeByte8 c st b
  | cmd24 w u =>
    rcases decodeCmd24_ok h with ⟨m, sp, rfl, rfl⟩ | ⟨k, p, hk, rfl, rfl, rfl⟩
    · exact ⟨wf_commandInstr c m sp u, encode_commandInstr m sp u⟩
    · exact ⟨by simp [Instr.wf, hk], rfl⟩
  | hexdigit8 b =>
    obtain rfl := Except.ok.inj h
    exact encode_decodeHexdigit8 c b
  | errcode16 e =>
    obtain rfl := Except.ok.inj h
    exact encode_decodeErrcode16 c e
  | frameCode f =>
    obtain ⟨k, d, rfl, rfl⟩ := eq_frameBytes_of_decodeFrameCode h
    exact ⟨rfl, rfl⟩
  | resetEvent | deadlineEvent | txReadyEvent | tauEvent | encodeCall k p | readframeCall | decodeCall arg =>
    obtain rfl := Except.ok.inj h
    exact ⟨rfl, rfl⟩

/-! ## The hex converters (R99 to R102) -/

/-- The three ranges of the characters with a digit value, and the value in each (R100). -/
theorem hexVal_eq_some {c : Config} {b : Byte} {d : Nat} (h : hexVal c b = some d) :
    (0x30 ≤ b.toNat ∧ b.toNat ≤ 0x39 ∧ d = b.toNat - 0x30) ∨
    (0x41 ≤ b.toNat ∧ b.toNat ≤ 0x46 ∧ d = b.toNat - 0x41 + 10) ∨
    (0x61 ≤ b.toNat ∧ b.toNat ≤ 0x66 ∧ d = b.toNat - 0x61 + 10) := by
  unfold hexVal at h
  split_ifs at h with hdigit hupper hlower
  · exact .inl ⟨hdigit.1, hdigit.2, (Option.some.inj h).symm⟩
  · exact .inr (.inl ⟨hupper.1, hupper.2, (Option.some.inj h).symm⟩)
  · exact .inr (.inr ⟨hlower.1, hlower.2.1, (Option.some.inj h).symm⟩)

theorem hexVal_lt {c : Config} {b : Byte} {d : Nat} (h : hexVal c b = some d) : d < 16 := by
  rcases hexVal_eq_some h with h | h | h <;> omega

/-- The number of a hex character (R99). -/
theorem toNat_hexChar {d : Nat} (h : d < 16) :
    (hexChar d).toNat = if d < 10 then 0x30 + d else 0x41 + (d - 10) := by
  unfold hexChar
  split <;> simp only [BitVec.toNat_ofNat] <;> split <;> omega

/-- A hex character is read as the digit it was written for, whatever the parameters (R99, R100). -/
@[simp] theorem hexVal_hexChar (c : Config) {d : Nat} (h : d < 16) : hexVal c (hexChar d) = some d := by
  rw [hexVal, toNat_hexChar h]
  split
  · rw [if_pos (by omega)]
    simp
  · rw [if_neg (by omega), if_pos (by omega)]
    exact congrArg some (by omega)

/-- The character written for a digit is the one read, in uppercase (R98, R102). -/
theorem hexChar_of_hexVal {c : Config} {b : Byte} {d : Nat} (h : hexVal c b = some d) :
    hexChar d = upperByte b := by
  apply BitVec.eq_of_toNat_eq
  rw [toNat_hexChar (hexVal_lt h), upperByte]
  rcases hexVal_eq_some h with ⟨hlo, hhi, hd⟩ | ⟨hlo, hhi, hd⟩ | ⟨hlo, hhi, hd⟩
  · rw [if_pos (by omega), if_neg (by omega)]
    omega
  · rw [if_neg (by omega), if_neg (by omega)]
    omega
  · rw [if_neg (by omega), if_pos (by omega), BitVec.toNat_sub_of_le (by bv_omega)]
    simp
    omega

theorem nibble_lt (v i : Nat) : nibble v i < 16 := Nat.mod_lt _ (by decide)

/-- The four digits that a group of characters must have for `unhex4` to have a value, and that value (R102). -/
theorem unhexWord_eq_some_iff {c : Config} {g3 g2 g1 g0 : Byte} {w : Word} :
    unhexWord c g3 g2 g1 g0 = some w ↔
      ∃ d3 d2 d1 d0, hexVal c g3 = some d3 ∧ hexVal c g2 = some d2 ∧ hexVal c g1 = some d1 ∧
        hexVal c g0 = some d0 ∧ w.toNat = 4096 * d3 + 256 * d2 + 16 * d1 + d0 := by
  unfold unhexWord
  constructor
  · intro h
    split at h
    · rename_i d3 d2 d1 d0 h3 h2 h1 h0
      obtain rfl := Option.some.inj h
      have hlt3 := hexVal_lt h3
      have hlt2 := hexVal_lt h2
      have hlt1 := hexVal_lt h1
      have hlt0 := hexVal_lt h0
      refine ⟨d3, d2, d1, d0, h3, h2, h1, h0, ?_⟩
      rw [BitVec.toNat_ofNat]
      omega
    · cases h
  · rintro ⟨d3, d2, d1, d0, h3, h2, h1, h0, hw⟩
    simp only [h3, h2, h1, h0, ← hw, BitVec.ofNat_toNat, BitVec.setWidth_eq]

theorem unhexWord_eq_none_iff {c : Config} {g3 g2 g1 g0 : Byte} :
    unhexWord c g3 g2 g1 g0 = none ↔
      hexVal c g3 = none ∨ hexVal c g2 = none ∨ hexVal c g1 = none ∨ hexVal c g0 = none := by
  unfold unhexWord
  split
  · simp [*]
  · rename_i hnone
    simp only [true_iff]
    by_contra hall
    simp only [not_or, Option.ne_none_iff_exists'] at hall
    obtain ⟨⟨d3, h3⟩, ⟨d2, h2⟩, ⟨d1, h1⟩, ⟨d0, h0⟩⟩ := hall
    exact hnone d3 d2 d1 d0 h3 h2 h1 h0

/-- The two digits that a pair must have for `unhex2` to have a value, and that value (R102). -/
theorem unhexPair_eq_some_iff {c : Config} {g : CharPair} {v : Byte} :
    unhexPair c g = some v ↔
      ∃ d1 d0, hexVal c g.first = some d1 ∧ hexVal c g.second = some d0 ∧ v.toNat = 16 * d1 + d0 := by
  unfold unhexPair
  constructor
  · intro h
    split at h
    · rename_i d1 d0 h1 h0
      obtain rfl := Option.some.inj h
      have hlt1 := hexVal_lt h1
      have hlt0 := hexVal_lt h0
      refine ⟨d1, d0, h1, h0, ?_⟩
      rw [BitVec.toNat_ofNat]
      omega
    · cases h
  · rintro ⟨d1, d0, h1, h0, hv⟩
    simp only [h1, h0, ← hv, BitVec.ofNat_toNat, BitVec.setWidth_eq]

theorem unhexPair_eq_none_iff {c : Config} {g : CharPair} :
    unhexPair c g = none ↔ hexVal c g.first = none ∨ hexVal c g.second = none := by
  unfold unhexPair
  cases hexVal c g.first <;> cases hexVal c g.second <;> simp

/-- The digits of a word by their places (R10). -/
theorem nibbles_of_digits {v d3 d2 d1 d0 : Nat} (h3 : d3 < 16) (h2 : d2 < 16) (h1 : d1 < 16) (h0 : d0 < 16)
    (hv : v = 4096 * d3 + 256 * d2 + 16 * d1 + d0) :
    nibble v 3 = d3 ∧ nibble v 2 = d2 ∧ nibble v 1 = d1 ∧ nibble v 0 = d0 := by
  subst hv
  simp only [nibble]
  norm_num
  omega

/-- `hex4(unhex4(g)) = upper(g)` (R102). -/
theorem hexWord_of_unhexWord {c : Config} {g3 g2 g1 g0 : Byte} {w : Word}
    (h : unhexWord c g3 g2 g1 g0 = some w) :
    hexWord w = [upperByte g3, upperByte g2, upperByte g1, upperByte g0] := by
  obtain ⟨d3, d2, d1, d0, h3, h2, h1, h0, hw⟩ := unhexWord_eq_some_iff.mp h
  obtain ⟨hn3, hn2, hn1, hn0⟩ :=
    nibbles_of_digits (hexVal_lt h3) (hexVal_lt h2) (hexVal_lt h1) (hexVal_lt h0) hw
  rw [hexWord, hn3, hn2, hn1, hn0, hexChar_of_hexVal h3, hexChar_of_hexVal h2, hexChar_of_hexVal h1,
    hexChar_of_hexVal h0]

/-- `unhex4(hex4(w)) = w` (R102). -/
theorem unhexWord_hexWord (c : Config) (w : Word) :
    unhexWord c (hexChar (nibble w.toNat 3)) (hexChar (nibble w.toNat 2)) (hexChar (nibble w.toNat 1))
      (hexChar (nibble w.toNat 0)) = some w := by
  refine unhexWord_eq_some_iff.mpr ⟨_, _, _, _, hexVal_hexChar c (nibble_lt _ _), hexVal_hexChar c (nibble_lt _ _),
    hexVal_hexChar c (nibble_lt _ _), hexVal_hexChar c (nibble_lt _ _), ?_⟩
  have hlt := w.isLt
  simp only [nibble]
  norm_num
  omega

/-- A DATA field of words in digits is read back as those words (R66, R194). -/
theorem parseWords_flatMap_hexWord (c : Config) (ws : List Word) :
    parseWords c (ws.flatMap hexWord) = some ws := by
  induction ws with
  | nil => rfl
  | cons w ws ih =>
    simp only [List.flatMap_cons, hexWord, List.cons_append, List.nil_append, parseWords, unhexWord_hexWord, ih]

/-- Settles O6, by the values of the digits and their places. -/
theorem hexConversionLaws : Obligations.HexConversionLaws := fun c =>
  ⟨fun _ _ _ _ => unhexWord_eq_none_iff,
   fun _ _ _ _ _ h => ⟨unhexWord_eq_some_iff.mp h, hexWord_of_unhexWord h⟩,
   fun _ => unhexPair_eq_none_iff,
   fun _ _ h => unhexPair_eq_some_iff.mp h,
   parseWords_flatMap_hexWord c⟩

/-! ## Payloads (R132) -/

@[simp] theorem hexWord_length (w : Word) : (hexWord w).length = 4 := rfl

theorem flatMap_hexWord_length (ws : List Word) : (ws.flatMap hexWord).length = 4 * ws.length := by
  simp [List.length_flatMap, Nat.mul_comm]

/-- The character in place `j` of a word is its digit number `3 - j` (R60, R101). -/
theorem byteAt_hexWord (w : Word) {j : Nat} (h : j < 4) :
    byteAt (hexWord w) j = hexChar (nibble w.toNat (3 - j)) := by
  interval_cases j <;> rfl

/-- Word `n` stands at places `4n` to `4n+3` (R132). -/
theorem slice_flatMap_hexWord {ws : List Word} {n : Nat} (h : n < ws.length) :
    slice (ws.flatMap hexWord) (4 * n) (4 * n + 4) = hexWord ws[n] := by
  have hws : ws = ws.take n ++ ws[n] :: ws.drop (n + 1) := by simp
  have hlen : (ws.take n).length = n := by simp; omega
  refine slice_append (pre := (ws.take n).flatMap hexWord) (post := (ws.drop (n + 1)).flatMap hexWord) ?_ ?_ ?_
  · conv_lhs => rw [hws]
    simp only [List.flatMap_append, List.flatMap_cons]
  · rw [flatMap_hexWord_length, hlen]
  · rw [flatMap_hexWord_length, hlen, hexWord_length]

/-- Settles O11: a word is its four hex characters, and a sequence of words is cut into fours. -/
theorem payloadForms : Obligations.PayloadForms := by
  refine ⟨fun _ => rfl, fun w => ⟨?_, rfl, fun j hj => ?_⟩, fun ws n hn => ?_, flatMap_hexWord_length, rfl⟩
  · simp [dataBytes]
  · rw [dataBytes, byteAt_hexWord w hj, toNat_hexChar (nibble_lt _ _), nibble]
  · rw [List.getD_eq_getElem ws 0 hn]
    exact slice_flatMap_hexWord hn

/-! ## A run of SENDs (R137) -/

theorem execRun_append (c : Config) (is js : List Instr) (s : State) :
    execRun c (is ++ js) s = (execRun c is s).bind (execRun c js) := by
  induction is generalizing s with
  | nil => rfl
  | cons i is ih =>
    simp only [List.cons_append, execRun]
    cases execWith c i s with
    | next t => exact ih t
    | fault r => rfl
    | refused r => rfl

/-- One more instruction behind a run. -/
theorem execRun_concat {c : Config} {is : List Instr} {i : Instr} {s t u : State}
    (h : execRun c is s = some t) (hi : execWith c i t = .next u) : execRun c (is ++ [i]) s = some u := by
  simp only [execRun_append, h, Option.bind_some, execRun, hi]

/-- The state in which the first `n` bytes of the frame `f` have gone to the sink, and `o` was the last output. -/
def State.sending (s : State) (f : List Byte) (n : Nat) (o : Option Output) : State :=
  { s with txIdx := n, env := { s.env with sink := s.env.sink ++ f.take n, output := o } }

/-- Everything is in place to send the frame `f`: it is in the transmit buffer, and nothing of it is sent. -/
structure ReadyToSend (c : Config) (s : State) (f : List Byte) : Prop where
  sent : s.seqState = .sent
  length : s.txLen = f.length
  start : s.txIdx = 0
  fits : f.length ≤ c.txCap
  holds : ∀ i < f.length, Memory.read s.txBuf i = f[i]?

section
variable {c : Config} {s : State} {f : List Byte}

/-- A SEND gives the next byte of the frame to the sink. -/
theorem ReadyToSend.send_next (h : ReadyToSend c s f) {n : Nat} (hn : n < f.length) (o : Option Output) :
    execWith c .send (s.sending f n o) = .next { s.sending f (n + 1) (some (.tx f[n])) with
      seqState := if n + 1 = f.length then .awaitingFrame else .sent } := by
  have hread : Memory.read s.txBuf n = some f[n] := by rw [h.holds n hn, List.getElem?_eq_getElem hn]
  have hcap : n < c.txCap := hn.trans_le h.fits
  refine (transmitByte_sent (s := s.sending f n o) h.sent hcap hread).trans ?_
  simp only [State.sending, h.length, List.take_succ_eq_append_getElem hn, List.append_assoc]

/-- Before the last byte the block stays in Sent. -/
theorem ReadyToSend.run_front (h : ReadyToSend c s f) {n : Nat} (hn : n < f.length) :
    ∃ o, execRun c (List.replicate n .send) s = some (s.sending f n o) := by
  induction n with
  | zero =>
    refine ⟨s.env.output, congrArg some ?_⟩
    simp only [State.sending, List.take_zero, List.append_nil]
    rw [← h.start]
  | succ n ih =>
    obtain ⟨o, ho⟩ := ih (by omega)
    have hsend := h.send_next (n := n) (by omega) o
    rw [if_neg (by omega), ← h.sent] at hsend
    refine ⟨some (.tx f[n]), ?_⟩
    rw [List.replicate_succ']
    exact execRun_concat ho hsend

/-- The last SEND gives the last byte to the sink and goes to AwaitingFrame. -/
theorem ReadyToSend.run_all (h : ReadyToSend c s f) {b : Byte} (hb : f.getLast? = some b) :
    execRun c (List.replicate f.length .send) s =
      some { s.sending f f.length (some (.tx b)) with seqState := .awaitingFrame } := by
  obtain ⟨init, rfl⟩ := List.getLast?_eq_some_iff.mp hb
  have hlen : (init ++ [b]).length = init.length + 1 := by simp
  obtain ⟨o, ho⟩ := h.run_front (n := init.length) (by omega)
  have hsend := h.send_next (n := init.length) (by omega) o
  rw [if_pos hlen.symm, List.getElem_concat_length rfl] at hsend
  rw [hlen, List.replicate_succ']
  exact execRun_concat ho hsend

end

/-- EXCHANGE start of a request that is accepted makes its frame ready to send, with the sink as it was
(R262). -/
theorem exchangeStart_readyToSend {c : Config} {k : Cmd} {p : Payload} {s t : State} (hs : s.seqState = .idle)
    (hp : (dataBytes p).length ≤ c.txMaxData) (h : exchangeStart c k p s = .next t) :
    ReadyToSend c t (frameBytes (upperCmd k) (dataBytes p)) ∧ t.env.sink = s.env.sink := by
  rw [exchangeStart_eq, if_neg (by simp [hs]), if_neg (by omega)] at h
  obtain rfl := Host.Outcome.next.inj h
  refine ⟨⟨rfl, (frameBytes_length _ _).symm, rfl, ?_, fun i hi => ?_⟩, rfl⟩
  · rw [frameBytes_length, Config.txCap]
    omega
  · show Memory.read (Memory.writeRange _ _ _) i = _
    rw [Memory.read_writeRange, if_pos (by omega), Nat.sub_zero]

/-- The last byte of a frame is CR (R64). -/
theorem frameBytes_getLast? (k : Cmd) (d : List Byte) : (frameBytes k d).getLast? = some CR := by
  simp [frameBytes]

/-- Settles O27: EXCHANGE start leaves the frame ready to send, and each SEND gives its next byte to the sink. -/
theorem wholeRequestIsSent : Obligations.WholeRequestIsSent := by
  intro c k p s t hs hp h
  obtain ⟨hready, hsink⟩ := exchangeStart_readyToSend hs hp h
  have hlen := frameBytes_length (upperCmd k) (dataBytes p)
  rw [← hlen, ← hsink]
  constructor
  · intro n hn
    obtain ⟨o, ho⟩ := hready.run_front hn
    exact ⟨_, ho, hready.sent, rfl, rfl⟩
  · rw [hready.run_all (frameBytes_getLast? _ _), State.sending, List.take_length]
    rfl

/-! ## The sink (R69, R73) -/

/-- From `s` to `t` nothing goes to the sink, or in Sent the byte at `tx_idx`, which is the output. -/
def SinkStep (s t : State) : Prop :=
  (t.env.sink = s.env.sink ∧ ∀ b, t.env.output ≠ some (.tx b)) ∨
  (s.seqState = .sent ∧ ∃ b, Memory.read s.txBuf s.txIdx = some b ∧ t.txIdx = s.txIdx + 1 ∧
    t.env.sink = s.env.sink ++ [b] ∧ t.env.output = some (.tx b))

/-- Of the effects only the transmit step writes the sink (R137). -/
theorem Effect.sinkStep {c : Config} {s t : State} (he : Effect c s t) : SinkStep s t := by
  cases he with
  | quiet o _ ht => exact .inl ⟨rfl, ht⟩
  | send b hs hb _ => exact .inr ⟨hs, b, hb, rfl, rfl, rfl⟩
  | stay | stx | etx | cr => exact .inl ⟨by simp [State.withSource], by simp⟩
  | start | discard | classify | deadline | reset => exact .inl ⟨rfl, fun _ => nofun⟩

/-- Settles O50: neither the environment's move nor the taking of an event touches the sink, and of the effects only
the transmit step does. -/
theorem sinkWrittenOnlyInSent : Obligations.SinkWrittenOnlyInSent := by
  intro c s t h
  rcases stepWith_effect h with ⟨-, rfl⟩ | ⟨x, -, he⟩
  · exact .inl ⟨by simp, by simp⟩
  · simpa [SinkStep] using he.sinkStep

end Sys2Proof.Machine

/-! PROOFS. What the encoding means: which CMD fields are known, the checksum and its comparison, the classes of a
byte, and the hex digits. -/

namespace Sys2Proof.Machine

/-! ## The CMD fields that are known (R106, R108) -/

/-- The row of a code is the one it folds to in lowercase (R106, R212). -/
theorem decodeCommand_cmdToBits_iff {k : Cmd} {m : Command} :
    decodeCommand (cmdToBits k) = some m ↔ lowerCmd k = lowerCmd (cmdOfBits (commandMatch m)) := by
  rw [decodeCommand_eq_some_iff_spelling, lowerCmd_eq_iff_spelling]
  refine exists_congr fun sp => ⟨fun h => ?_, fun h => ?_⟩
  · rw [← h, cmdOfBits_cmdToBits]
  · rw [h, cmdToBits_cmdOfBits]

/-- Folding to an uppercase letter is folding to the same lowercase letter (R98). -/
theorem upperByte_eq_iff_lowerByte {b u : Byte} (hu : 0x41 ≤ u.toNat ∧ u.toNat ≤ 0x5A) :
    upperByte b = u ↔ lowerByte b = lowerByte u := by
  rw [upperByte, lowerByte, lowerByte, if_pos hu]
  split <;> split <;> bv_omega

/-- The two foldings compare a code with a command's code alike (R98, R106). -/
theorem upperCmd_eq_iff_lowerCmd {k : Cmd} {m : Command} :
    upperCmd k = cmdOfBits (commandMatch m) ↔ lowerCmd k = lowerCmd (cmdOfBits (commandMatch m)) := by
  obtain ⟨⟨hu0, -⟩, ⟨hu1, -⟩, ⟨hu2, -⟩⟩ := by
    simpa only [Cmd.toList, List.forall_mem_cons, List.not_mem_nil, false_implies, implies_true, and_true]
      using commandMatch_letters m
  generalize cmdOfBits (commandMatch m) = u at *
  obtain ⟨u0, u1, u2⟩ := u
  simp only [upperCmd, lowerCmd, Cmd.mk.injEq, upperByte_eq_iff_lowerByte hu0, upperByte_eq_iff_lowerByte hu1,
    upperByte_eq_iff_lowerByte hu2]

/-- The dispatcher of the source's catalog reports exactly the 15 codes in any case (R210, R212). -/
theorem dispatchLookup_isSome (k : Cmd) : (dispatchLookup Config.spec k).isSome = isSourceCode k := by
  rw [Bool.eq_iff_iff, dispatchLookup, catalogSize, Option.isSome_map, Option.isSome_map, List.find?_isSome,
    isSourceCode, List.contains_iff_mem, List.mem_map]
  simp only [beq_iff_eq]
  rfl

/-- Settles O4: the mask match, the uppercase match and the dispatcher's lookup all say which code the field folds
to in lowercase. -/
theorem maskMatchIsCaseFolding : Obligations.MaskMatchIsCaseFolding :=
  ⟨fun _ _ => ⟨decodeCommand_eq_some_iff, decodeCommand_cmdToBits_iff.trans upperCmd_eq_iff_lowerCmd.symm⟩,
   fun k => (decodeCommand_isSome k).trans (dispatchLookup_isSome k).symm⟩

theorem mem_allCommands (m : Command) : m ∈ allCommands := by
  cases m <;> decide

/-- The list of known fields holds every command in every spelling, and nothing else (R108). -/
theorem mem_knownFields_iff {w : BitVec 24} : w ∈ knownFields ↔ ∃ m sp, w = commandBits m sp := by
  simp only [knownFields, List.mem_flatMap, List.mem_map]
  constructor
  · rintro ⟨m, -, sp, -, rfl⟩
    exact ⟨m, sp, rfl⟩
  · rintro ⟨m, sp, rfl⟩
    refine ⟨m, mem_allCommands m, sp, ?_, rfl⟩
    obtain ⟨_ | _, _ | _, _ | _⟩ := sp <;> decide

theorem isSome_decodeCommand_iff {w : BitVec 24} : (decodeCommand w).isSome = true ↔ w ∈ knownFields := by
  simp only [Option.isSome_iff_exists, decodeCommand_eq_some_iff_spelling, mem_knownFields_iff]

/-- No field is two spellings, and none belongs to two commands: the decoder reads both back. -/
theorem knownFields_nodup : knownFields.Nodup := by
  have hspellings (m : Command) : Function.Injective (commandBits m) :=
    Function.LeftInverse.injective (spellingOf_commandBits m)
  refine List.nodup_flatMap.mpr ⟨fun m _ => List.Nodup.map (hspellings m) (by decide), ?_⟩
  have hcommands : allCommands.Nodup := by decide
  refine hcommands.imp fun {m m'} hne w hm hm' => hne ?_
  obtain ⟨sp, -, rfl⟩ := List.mem_map.mp hm
  obtain ⟨sp', -, heq⟩ := List.mem_map.mp hm'
  have hrow := congrArg decodeCommand heq
  rw [decodeCommand_commandBits, decodeCommand_commandBits] at hrow
  exact (Option.some.inj hrow).symm

/-- Settles O5: the known fields are the spellings of the commands, which the decoder tells apart. -/
theorem knownCommandFields : Obligations.KnownCommandFields := by
  refine ⟨fun _ => isSome_decodeCommand_iff, ⟨knownFields_nodup, rfl⟩, fun w hw => ?_⟩
  have hnone : decodeCommand w = none := by
    rwa [← isSome_decodeCommand_iff, Option.not_isSome_iff_eq_none] at hw
  simp [decode, decodeCmd24, hnone]

/-! ## The checksum (R104) -/

/-- The checksum is the sum of the bytes as they are added in 8 bits. -/
theorem chk_eq_sum (s : List Byte) : chk s = s.sum := by
  induction s with
  | nil => rfl
  | cons b s ih =>
    rw [List.sum_cons, ← ih, chk, chk, List.map_cons, List.sum_cons, BitVec.ofNat_add, BitVec.ofNat_toNat,
      BitVec.setWidth_eq]

/-- The CHK field of a frame is the checksum of what stands before it (R95). -/
theorem chkField_frameBytes (k : Cmd) (d : List Byte) :
    chkField (frameBytes k d) = hexPair (chk (slice (frameBytes k d) 0 ((frameBytes k d).length - 3))) := by
  rw [frameBytes_eq_framed, chkField_framed, framed_length, show 8 + d.length - 3 = 5 + d.length by omega,
    slice_framed_body]
  rfl

/-- Settles O7: a sum modulo 256 is a sum of 8-bit bytes, and a frame has its checksum by its layout. -/
theorem checksumLaws : Obligations.ChecksumLaws :=
  ⟨fun _ => BitVec.toNat_ofNat .., rfl, fun s => (chk_eq_sum s).trans List.sum_eq_foldl,
   chkField_frameBytes, by decide⟩

/-! ## The comparison of the checksum (R193) -/

/-- A character whose uppercase is a hex character lies in one of the three ranges of R100. -/
theorem hexRange_of_upperByte_eq {b : Byte} {d : Nat} (hd : d < 16) (h : upperByte b = hexChar d) :
    (0x30 ≤ b.toNat ∧ b.toNat ≤ 0x39 ∧ d = b.toNat - 0x30) ∨
    (0x41 ≤ b.toNat ∧ b.toNat ≤ 0x46 ∧ d = b.toNat - 0x41 + 10) ∨
    (0x61 ≤ b.toNat ∧ b.toNat ≤ 0x66 ∧ d = b.toNat - 0x61 + 10) := by
  have hchar := toNat_hexChar hd
  rw [← h, upperByte] at hchar
  split at hchar
  · have hsub : (b - 0x20).toNat = b.toNat - 0x20 := BitVec.toNat_sub_of_le (by bv_omega)
    split at hchar <;> omega
  · split at hchar <;> omega

/-- A character has the digit value `d` when it is the hex character of `d`, or, where the parameter admits it, its
lowercase (R100). -/
theorem hexVal_eq_some_iff {c : Config} {b : Byte} {d : Nat} (hd : d < 16) :
    hexVal c b = some d ↔ upperByte b = hexChar d ∧ (c.rxHexAcceptLower = true ∨ b = hexChar d) := by
  constructor
  · intro h
    have hup := hexChar_of_hexVal h
    refine ⟨hup.symm, or_iff_not_imp_left.mpr fun hlow => ?_⟩
    have hnotlower : ¬(0x61 ≤ b.toNat ∧ b.toNat ≤ 0x66) := fun hb => by
      have hnone : hexVal c b = none := hexVal_eq_none_iff.mpr ⟨by omega, by omega, fun _ _ => hlow⟩
      simp [hnone] at h
    rw [hup, upperByte, if_neg (by have := hexVal_eq_some h; omega)]
  · rintro ⟨hup, hlow | rfl⟩
    · unfold hexVal
      rcases hexRange_of_upperByte_eq hd hup with ⟨hlo, hhi, rfl⟩ | ⟨hlo, hhi, rfl⟩ | ⟨hlo, hhi, rfl⟩
      · rw [if_pos ⟨hlo, hhi⟩]
      · rw [if_neg (by omega), if_pos ⟨hlo, hhi⟩]
      · rw [if_neg (by omega), if_neg (by omega), if_pos ⟨hlo, hhi, hlow⟩]
    · exact hexVal_hexChar c hd

/-- The digits of a byte by their places (R10). -/
theorem unhexPair_eq_some_iff_digits {c : Config} {g : CharPair} {v : Byte} :
    unhexPair c g = some v ↔
      hexVal c g.first = some (nibble v.toNat 1) ∧ hexVal c g.second = some (nibble v.toNat 0) := by
  rw [unhexPair_eq_some_iff]
  constructor
  · rintro ⟨d1, d0, h1, h0, hv⟩
    obtain ⟨-, -, hn1, hn0⟩ := nibbles_of_digits (v := v.toNat) (d3 := 0) (d2 := 0) (by decide) (by decide)
      (hexVal_lt h1) (hexVal_lt h0) (by omega)
    exact ⟨hn1 ▸ h1, hn0 ▸ h0⟩
  · rintro ⟨h1, h0⟩
    refine ⟨_, _, h1, h0, ?_⟩
    have hlt := v.isLt
    simp only [nibble]
    omega

/-- Settles O20: the strict comparison is with the rendering, the other with the value, which is compared digit by
digit. -/
theorem checksumComparison : Obligations.ChecksumComparison := by
  intro c v r
  constructor
  · intro hstrict
    simp only [checksumFails, hstrict, if_true, decide_eq_false_iff_not, not_not, ne_eq]
    exact eq_comm
  · intro hvalue
    obtain ⟨r1, r0⟩ := r
    simp only [checksumFails, hvalue, Bool.false_eq_true, if_false, decide_eq_false_iff_not, not_not, ne_eq,
      unhexPair_eq_some_iff_digits, hexVal_eq_some_iff (nibble_lt _ _), hexPair, CharPair.mk.injEq]
    tauto

/-! ## The classes of a byte (R105) -/

/-- The classes STX, ETX and CR have one byte each, and OTHER has all the rest (R105). -/
theorem byteClass_iff (b : Byte) :
    (byteClass b = .stx ↔ b = STX) ∧ (byteClass b = .etx ↔ b = ETX) ∧ (byteClass b = .cr ↔ b = CR) ∧
      (byteClass b = .other ↔ b ≠ STX ∧ b ≠ ETX ∧ b ≠ CR) := by
  rcases byteClass_cases b with ⟨rfl, -⟩ | ⟨rfl, -⟩ | ⟨rfl, -⟩ | ⟨⟨hstx, hetx, hcr⟩, hb⟩
  case inr.inr.inr => simp [hb, hstx, hetx, hcr]
  all_goals decide

/-- Which byte is kept shows in RXBUF and nowhere else (R151). -/
theorem keep_sameButRxBuf (c : Config) (b b' : Byte) (s : State) :
    ∃ m, keep c b' s = (keep c b s).withRxBuf m := by
  by_cases hroom : s.rxLen < c.rxCap
  · exact ⟨Memory.write s.rxBuf s.rxLen b', by simp [keep, State.withRxBuf, hroom]⟩
  · exact ⟨s.rxBuf, by simp [keep, State.withRxBuf, hroom]⟩

theorem preamble_sameButRxBuf (c : Config) (b b' : Byte) (s : State) :
    ∃ m, preamble c b' s = (preamble c b s).withRxBuf m := by
  unfold preamble
  split
  · exact keep_sameButRxBuf c b b' s
  · exact ⟨s.rxBuf, rfl⟩

/-- Two bytes of one class make the same transition; they differ in what RXBUF then holds (R105, R164). -/
theorem recognize_of_byteClass_eq (c : Config) (s : State) {b b' : Byte} (h : byteClass b = byteClass b') :
    ∃ m, recognize c b' s = (recognize c b s).withRxBuf m := by
  obtain ⟨mk, hk⟩ := keep_sameButRxBuf c b b' s
  obtain ⟨mp, hp⟩ := preamble_sameButRxBuf c b b' s
  obtain ⟨hstx, hetx, hcr, -⟩ := byteClass_iff b
  obtain ⟨hstx', hetx', hcr', -⟩ := byteClass_iff b'
  unfold recognize
  simp only [hk, hp, ← hstx, ← hetx, ← hcr, ← hstx', ← hetx', ← hcr', h]
  cases s.rxState with
  | awaitingStart =>
    dsimp only
    split
    · exact ⟨mk, rfl⟩
    · exact ⟨mp, rfl⟩
  | awaitingEnd =>
    dsimp only
    split <;> exact ⟨mk, rfl⟩
  | awaitingTerminator =>
    dsimp only
    split <;> exact ⟨mk, rfl⟩

/-- Settles O8: a class is a comparison with three bytes, and it is all that the recognizer's function reads of the
byte it keeps. -/
theorem byteClasses : Obligations.ByteClasses := by
  refine ⟨byteClass_iff, by decide, fun c s b b' h => ?_⟩
  obtain ⟨m, hm⟩ := recognize_of_byteClass_eq c s h
  rw [hm]
  exact ⟨rfl, rfl, rfl, rfl⟩

/-! ## The hex digits (R99, R100) -/

/-- The rows with one character for their code have the meaning of that character (R99, R100). -/
theorem execWith_of_encode_hexdigit8 {c : Config} {i : Instr} {b : Byte} {s : State}
    (h : encode i = .hexdigit8 b) :
    execWith c i s = digitMeaning b c s := by
  cases i <;> cases h <;> rfl

/-- A character that the block produces has its value whatever the parameters. -/
theorem execWith_uppercase_row {c : Config} {i : Instr} {d : Nat} {s : State}
    (h : encode i = .hexdigit8 (hexChar d)) (hd : d < 16) :
    execWith c i s = .next (s.withOutput (some (.returned (.digit (some d) true)))) := by
  rw [execWith_of_encode_hexdigit8 h, digitMeaning, hexVal_hexChar c hd]
  simp [giveValue]

/-- A character without a value is none that the block produces. -/
theorem execWith_none_row {c : Config} {i : Instr} {b : Byte} {s : State}
    (h : encode i = .hexdigit8 b) (hb : hexVal c b = none) :
    execWith c i s = .next (s.withOutput (some (.returned (.digit none false)))) := by
  rw [execWith_of_encode_hexdigit8 h, digitMeaning, hb]
  rfl

/-- A lowercase letter has the value of its uppercase where the parameter admits it, and the block produces the
uppercase one. -/
theorem execWith_lowercase_row {c : Config} {i : Instr} {b : Byte} {d : Nat} {s : State}
    (h : encode i = .hexdigit8 b) (hd : d < 16) (hup : upperByte b = hexChar d) (hlow : b ≠ hexChar d) :
    execWith c i s = .next (s.withOutput (some (.returned
      (.digit (if c.rxHexAcceptLower then some d else none) false)))) := by
  split
  · rename_i hacc
    rw [execWith_of_encode_hexdigit8 h, digitMeaning, (hexVal_eq_some_iff hd).mpr ⟨hup, .inl hacc⟩]
    simp [giveValue, hlow.symm]
  · rename_i hacc
    refine execWith_none_row h (Option.eq_none_iff_forall_ne_some.mpr fun d' hd' => hlow ?_)
    obtain ⟨hup', hacc' | hb⟩ := (hexVal_eq_some_iff (hexVal_lt hd')).mp hd'
    · exact absurd hacc' hacc
    · rw [← hup, hup', hb]

/-- Settles O42: a digit's row gives what `hexval` says of its character. -/
theorem hexDigitsComplete : Obligations.HexDigitsComplete := by
  intro s
  simp only [exec_eq_execWith]
  refine ⟨fun x hx => ?_, fun x hx => ?_, fun b hb => execWith_none_row rfl hb⟩
  · fin_cases hx
    all_goals exact execWith_uppercase_row rfl (by decide)
  · have hrow (c : Config) : execWith c x.1 s = .next (s.withOutput (some (.returned
        (.digit (if c.rxHexAcceptLower then some x.2 else none) false)))) := by
      fin_cases hx
      all_goals exact execWith_lowercase_row rfl (by decide) (by decide) (by decide)
    exact ⟨hrow Config.spec, fun c hc => by rw [hrow c, hc]; rfl⟩

/-! ## Words written out from the tables -/

/-- Settles O3: the frame and the command codes by their formats, the other words by their row. -/
theorem writtenCodesDecode : Obligations.WrittenCodesDecode :=
  ⟨decodeFrameCode_frameBytes ⟨0x48, 0x47, 0x56⟩ [],
   decodeCmd24_commandBits .hgv ⟨false, false, false⟩ _,
   decodeCmd24_commandBits .hxx ⟨true, true, true⟩ _,
   rfl, rfl, rfl, rfl,
   congrArg Except.ok (decodeByte8_of_other (b := 0x82) rfl).1,
   rfl, rfl,
   congrArg Except.ok (decodeHexdigit8_of_none (b := 0x47) rfl),
   rfl,
   congrArg Except.ok (decodeErrcode16_of_unmapped (e := 0x0101) rfl)⟩

end Sys2Proof.Machine

/-! PROOFS. What a request is: the frame that ENCODE builds and what DECODE reads back from it, EXCHANGE start and the
refusals under every code, and the transmit step. -/

namespace Sys2Proof.Machine

/-! ## The catalog's row of a code (R210, R212) -/

/-- A code is looked up by its lowercase, which the CMD field's uppercase does not change (R98, R131). -/
@[simp] theorem lowerByte_upperByte (b : Byte) : lowerByte (upperByte b) = lowerByte b := by
  unfold lowerByte upperByte
  split_ifs <;> bv_omega

@[simp] theorem lowerCmd_upperCmd (k : Cmd) : lowerCmd (upperCmd k) = lowerCmd k := by
  simp [lowerCmd, upperCmd]

/-- The codes of a well-formed catalog are distinct (R228). -/
theorem catalog_nodup {c : Config} (hc : c.wf = true) : (c.catalog.map CatalogRow.code).Nodup := by
  simp only [Config.wf, Config.catalogOk, Bool.and_eq_true, decide_eq_true_eq] at hc
  obtain ⟨⟨-, ⟨-, hnodup⟩, -⟩, -⟩ := hc
  exact hnodup

/-- The size of a row's code is that row's: no other row has the code (R210, R228). -/
theorem catalogSize_of_mem {c : Config} (hc : c.wf = true) {r : CatalogRow} (hr : r ∈ c.catalog) :
    catalogSize c r.code = some r.size := by
  have hfound : (c.catalog.find? (fun x => x.code == r.code)).isSome := by
    rw [List.find?_isSome]
    exact ⟨r, hr, beq_self_eq_true r.code⟩
  obtain ⟨r', hr'⟩ := Option.isSome_iff_exists.mp hfound
  have hcode : r'.code = r.code := by simpa using List.find?_some hr'
  obtain rfl := List.inj_on_of_nodup_map (catalog_nodup hc) (List.mem_of_find?_eq_some hr') hr hcode
  rw [catalogSize, hr', Option.map_some]

/-- The dispatcher finds a row of the catalog by its code in any case (R212). -/
theorem dispatchLookup_of_mem {c : Config} (hc : c.wf = true) {r : CatalogRow} (hr : r ∈ c.catalog) {k : Cmd}
    (hk : lowerCmd k = r.code) : dispatchLookup c k = some ⟨r.code, r.size, 8 + r.size, r.size / 4⟩ := by
  rw [dispatchLookup, hk, catalogSize_of_mem hc hr]
  rfl

/-- `TX_MAX_DATA` holds the longest DATA field of the catalog (R8). -/
theorem txMaxData_ge {c : Config} (hc : c.wf = true) : 24 ≤ c.txMaxData := by
  simp only [Config.wf, Bool.and_eq_true, decide_eq_true_eq] at hc
  obtain ⟨⟨⟨-, hmax⟩, -⟩, -⟩ := hc
  exact hmax

/-! ## DECODE of a frame that is built (R138) -/

/-- The checksum as the block writes it passes either comparison (R193). -/
@[simp] theorem checksumFails_hexPair (c : Config) (v : Byte) : checksumFails c v (hexPair v) = false := by
  have hvalue : unhexPair c (hexPair v) = some v :=
    unhexPair_eq_some_iff_digits.mpr ⟨hexVal_hexChar c (nibble_lt _ _), hexVal_hexChar c (nibble_lt _ _)⟩
  simp [checksumFails, hvalue]

/-- A frame that is built passes every check on its layout and its checksum: what is left to DECODE is the length
that the catalog gives the command, and the digits of DATA (R182 to R195). -/
theorem decodeFrame_frameBytes {c : Config} {k : Cmd} {e : CatalogEntry} (d : List Byte)
    (he : dispatchLookup c k = some e) :
    (decodeFrame c (frameBytes k d) false).result =
      if d.length ≠ e.size then .frameError .lengthMismatch
      else (parseWords c d).elim (.frameError .badHexDigit) (.ok e.code) := by
  rw [frameBytes_eq_framed, decodeFrame, framed_length, if_neg Bool.false_ne_true, if_neg (by omega),
    show 8 + d.length - 1 = 7 + d.length by omega, show 8 + d.length - 4 = 4 + d.length by omega,
    show 8 + d.length - 3 = 5 + d.length by omega, show 8 + d.length - 8 = d.length by omega]
  simp only [byteAt_framed_start, byteAt_framed_terminator, byteAt_framed_etx, chkField_framed, slice_framed_body,
    cmdField_framed, dataField_framed, he]
  have hchk : checksumFails c (chk (STX :: k.toList ++ d ++ [ETX])) (hexPair (chk (frameBody k d))) = false :=
    checksumFails_hexPair c _
  rw [hchk]
  by_cases hlen : d.length = e.size
  · cases hws : parseWords c d with
    | none => simp [hlen]
    | some ws => simp [hlen]
  · simp [hlen]

/-- The frame of a catalog command with its number of words is read back (R138). -/
theorem decodeFrame_frameBytes_words {c : Config} (hc : c.wf = true) {r : CatalogRow} (hr : r ∈ c.catalog) {k : Cmd}
    (hk : lowerCmd k = r.code) {ws : List Word} (hws : 4 * ws.length = r.size) :
    (decodeFrame c (frameBytes k (ws.flatMap hexWord)) false).result = .ok r.code ws := by
  rw [decodeFrame_frameBytes _ (dispatchLookup_of_mem hc hr hk), flatMap_hexWord_length,
    if_neg (not_not.mpr hws), parseWords_flatMap_hexWord]
  rfl

/-- Settles O13: the frame of a catalog command's words passes each check of DECODE, and HBV has no DATA in the
catalog. -/
theorem encodeDecodeRoundTrip : Obligations.EncodeDecodeRoundTrip := by
  constructor
  · intro c hc r hr k ws hk hws
    obtain ⟨hmod, hsize, -⟩ := catalog_bounds hc hr
    have hwords : 4 * ws.length = r.size := by omega
    have hmax := txMaxData_ge hc
    refine ⟨_, encodeFrame_eq_ok.mpr ⟨?_, rfl⟩, decodeFrame_frameBytes_words hc hr ?_ hwords⟩
    · rw [dataBytes, flatMap_hexWord_length]
      omega
    · rw [lowerCmd_upperCmd, hk]
  · intro w
    have hrow : dispatchLookup Config.spec (upperCmd ⟨0x48, 0x42, 0x56⟩) =
        some ⟨⟨0x68, 0x62, 0x76⟩, 0, 8, 0⟩ := rfl
    refine ⟨_, encodeFrame_eq_ok.mpr ⟨?_, rfl⟩, frameBytes_length _ _, ?_⟩
    · show 4 ≤ 24
      decide
    · rw [decodeFrame_frameBytes _ hrow]
      rfl

/-! ## ENCODE (R133, R134) -/

/-- Settles O10: the frame that ENCODE answers is laid out as R64 says. -/
theorem encodeCompletes : Obligations.EncodeCompletes := fun k p s hp =>
  ⟨frameBytes (upperCmd k) (dataBytes p), frameLayout_frameBytes _ _,
   execEncode_of_ok (c := Config.spec) (encodeFrame_eq_ok.mpr ⟨hp, rfl⟩) s⟩

/-! ## Requests (R261, R262) -/

/-- EXCHANGE start of a request that is accepted: its frame in the transmit buffer, the state of R262 around it. -/
theorem exchangeStart_started {c : Config} {p : Payload} {s : State} (k : Cmd) (hs : s.seqState = .idle)
    (hp : (dataBytes p).length ≤ c.txMaxData) :
    ∃ t, ExchangeStarted (upperCmd k) (frameBytes (upperCmd k) (dataBytes p)) s t ∧
      exchangeStart c k p s = .next t := by
  have hcmd : cmdField (frameBytes (upperCmd k) (dataBytes p)) = upperCmd k := by
    rw [frameBytes_eq_framed, cmdField_framed]
  rw [exchangeStart_eq, if_neg (not_not.mpr hs), if_neg (by omega), hcmd]
  refine ⟨_, ⟨?_, fun i => ?_⟩, rfl⟩
  · rw [frameBytes_length]
  · simp [Memory.read_writeRange]

/-- In Idle a request with too much DATA is refused and changes nothing (R133). -/
theorem exchangeStart_tooLong {c : Config} {p : Payload} {s : State} (k : Cmd) (hs : s.seqState = .idle)
    (hp : c.txMaxData < (dataBytes p).length) :
    exchangeStart c k p s = .next (s.withOutput (some (.refused .payloadTooLong))) := by
  rw [exchangeStart_eq, if_neg (not_not.mpr hs), if_pos hp]

/-- A command's code in any spelling is sent as its pattern, in uppercase (R106, R131). -/
theorem upperCmd_commandBits (m : Command) (sp : Spelling) :
    upperCmd (cmdOfBits (commandBits m sp)) = cmdOfBits (commandMatch m) :=
  upperCmd_eq_iff_lowerCmd.mpr (lowerCmd_eq_iff_spelling.mpr ⟨sp, rfl⟩)

/-- In a request the row of a command does what EXCHANGE does with the bytes of its spelling (log entry 8). -/
theorem execWith_commandInstr_request (c : Config) (m : Command) (sp : Spelling) (p : Payload) (s : State) :
    execWith c (commandInstr m sp (.request p)) s = exchangeStart c (cmdOfBits (commandBits m sp)) p s :=
  execWith_commandInstr c m sp (.request p) s

/-- Settles O22: a command's row starts the exchange of its spelling, whose uppercase is the command's pattern. -/
theorem commandRequestStartsExchange : Obligations.CommandRequestStartsExchange := by
  intro m sp p s hs hp
  obtain ⟨t, hstarted, ht⟩ :=
    exchangeStart_started (c := Config.spec) (cmdOfBits (commandBits m sp)) hs hp
  rw [upperCmd_commandBits] at hstarted
  exact ⟨_, t, frameLayout_frameBytes _ _, hstarted,
    by rw [exec_eq_execWith, execWith_commandInstr_request, ht]⟩

/-- Settles O25: a code with a row is a spelling of that row's command, and a code without one is an EXCHANGE. -/
theorem requestCodeIsImmaterial : Obligations.RequestCodeIsImmaterial := by
  intro c k p s
  cases hrow : decodeCommand (cmdToBits k) with
  | some m =>
    obtain ⟨sp, hbits⟩ := decodeCommand_eq_some_iff_spelling.mp hrow
    refine ⟨commandInstr m sp (.request p), ?_, ?_⟩
    · rw [hbits]
      exact decodeCmd24_commandBits m sp (.request p)
    · rw [execWith_commandInstr_request, ← hbits, cmdOfBits_cmdToBits]
      rfl
  | none => exact ⟨.exchange k p, by simp [decode, decodeCmd24, hrow], rfl⟩

/-- Settles O12: ENCODE refuses the DATA field, and every request's row is EXCHANGE start, which refuses it too. -/
theorem payloadTooLongRefused : Obligations.PayloadTooLongRefused := fun c _ s hp =>
  ⟨fun _ => execEncode_of_error (encodeFrame_eq_error.mpr ⟨hp, rfl⟩) s,
   fun hs => ⟨fun k => exchangeStart_tooLong k hs hp,
     fun m sp => (execWith_commandInstr_request c m sp _ s).trans (exchangeStart_tooLong _ hs hp)⟩⟩

/-! ## The transmit step (R137) -/

theorem transmitByte_not_sent {c : Config} {s : State} (hs : s.seqState ≠ .sent) :
    transmitByte c s = .next (s.withOutput none) := by
  rw [transmitByte, if_neg hs]
  rfl

/-- Settles O26: the next byte lies in the 32 bytes of TXBUF, and outside Sent there is no next byte. -/
theorem sendStep : Obligations.SendStep :=
  ⟨fun _ _ hs hidx hb => transmitByte_sent (c := Config.spec) hs hidx hb, fun _ hs => transmitByte_not_sent hs⟩

end Sys2Proof.Machine

/-! PROOFS. The recognizer: what its twelve rows do with a byte, what READFRAME does with the bytes of the source, and
when the raw frame is complete. -/

namespace Sys2Proof.Machine

/-! ## A byte that is kept (R151) -/

/-- `keep` with the states gone to afterwards is a byte kept, whether it fits or overflows (R151). -/
theorem byteKept_keep (c : Config) (b : Byte) (rs : RxState) (q : SeqState) (s : State) :
    ByteKept c.rxCap b rs q s (State.withOutput { keep c b s with rxState := rs, seqState := q } none) := by
  by_cases hroom : s.rxLen < c.rxCap
  · refine ⟨by simp [keep, hroom, State.withOutput], fun i => ?_⟩
    by_cases hi : i = s.rxLen
    · simp [keep, hroom, hi]
    · simp [keep, hroom, hi, Memory.read_write_other s.rxBuf b hi]
  · exact ⟨by simp [keep, hroom, State.withOutput], fun i => by simp [keep, hroom]⟩

/-! ## The delimiters (R152 to R163) -/

/-- The byte on which the recognizer moves on from a state (R152, R157, R160). -/
def delimiter : RxState → Byte
  | .awaitingStart => STX
  | .awaitingEnd => ETX
  | .awaitingTerminator => CR

/-- The recognizer's state behind the delimiter of a state. -/
def nextRx : RxState → RxState
  | .awaitingStart => .awaitingEnd
  | .awaitingEnd => .awaitingTerminator
  | .awaitingTerminator => .awaitingStart

/-- The sequencer's state behind the delimiter of a state: the CR completes the frame (R160). -/
def nextSeq : RxState → SeqState
  | .awaitingStart => .awaitingFrame
  | .awaitingEnd => .awaitingFrame
  | .awaitingTerminator => .decoded

/-- The recognizer on its delimiter: kept, and on to the next states. -/
theorem recognize_delimiter (c : Config) {s : State} (hs : s.seqState = .awaitingFrame) :
    recognize c (delimiter s.rxState) s =
      { keep c (delimiter s.rxState) s with rxState := nextRx s.rxState, seqState := nextSeq s.rxState } := by
  have hkeep (b : Byte) : SeqState.awaitingFrame = (keep c b s).seqState := by rw [keep_seqState, hs]
  cases hr : s.rxState with
  | awaitingStart => simp only [recognize, hr, delimiter, nextRx, nextSeq, if_true, hkeep STX]
  | awaitingEnd => simp only [recognize, hr, delimiter, nextRx, nextSeq, if_true, hkeep ETX]
  | awaitingTerminator => simp only [recognize, hr, delimiter, nextRx, nextSeq, if_true, frameComplete]

/-- The row of a delimiter keeps it, whether it fits or overflows, and goes to the next states. -/
theorem delimiter_row_byteKept (c : Config) {st : RxState} {s : State} (hs : s.seqState = .awaitingFrame)
    (hr : s.rxState = st) :
    ∃ t, execWith c (decodeByte8 st (delimiter st)) s = .next t ∧
      ByteKept c.rxCap (delimiter st) (nextRx st) (nextSeq st) s t := by
  subst hr
  rw [execWith_decodeByte8 _ hs, recognize_delimiter c hs]
  exact ⟨_, rfl, byteKept_keep c _ _ _ s⟩

/-- Settles O28: STX, ETX and CR are the delimiters of the three states. -/
theorem rowsThatAdvance : Obligations.RowsThatAdvance := fun _ hs =>
  ⟨delimiter_row_byteKept Config.spec hs, delimiter_row_byteKept Config.spec hs,
   delimiter_row_byteKept Config.spec hs⟩

/-! ## A byte kept without moving on (R156, R158, R159, R161 to R163) -/

theorem keep_with_own_states (c : Config) (b : Byte) (s : State) :
    { keep c b s with rxState := s.rxState, seqState := s.seqState } = keep c b s := by
  rw [← keep_rxState c b s, ← keep_seqState c b s]

/-- A selected row whose action is to keep the byte: neither state changes. -/
theorem rxTransition_keep {st : RxState} {s : State} (c : Config) (b : Byte) (hs : s.seqState = .awaitingFrame)
    (hr : s.rxState = st) :
    ∃ t, rxTransition st (keep c b) s = .next t ∧ ByteKept c.rxCap b st .awaitingFrame s t := by
  have hkept := byteKept_keep c b s.rxState s.seqState s
  rw [keep_with_own_states, hs, hr] at hkept
  rw [rxTransition_eq, if_pos ⟨hs, hr⟩]
  exact ⟨_, rfl, hkept⟩

/-- Settles O29: each of the six rows is `keep` of its byte. -/
theorem rowsThatStay : Obligations.RowsThatStay := fun s hs =>
  have hstay {st : RxState} (hr : s.rxState = st) (b : Byte) := rxTransition_keep Config.spec b hs hr
  ⟨fun hr => ⟨hstay hr _, hstay hr _, hstay hr⟩, fun hr => ⟨hstay hr _, hstay hr _, hstay hr⟩⟩

/-! ## The preamble (R153 to R155) -/

theorem preamble_of_discard {c : Config} (hc : c.rxKeepPreamble = false) (b : Byte) : preamble c b = id := by
  funext s
  simp [preamble, hc]

theorem preamble_of_keep {c : Config} (hc : c.rxKeepPreamble = true) (b : Byte) : preamble c b = keep c b := by
  funext s
  simp [preamble, hc]

/-- A selected row of the preamble changes nothing when the preamble is not kept. -/
theorem rxTransition_preamble_discard {c : Config} {s : State} (hc : c.rxKeepPreamble = false) (b : Byte)
    (hs : s.seqState = .awaitingFrame) (hr : s.rxState = .awaitingStart) :
    rxTransition .awaitingStart (preamble c b) s = .next (s.withOutput none) := by
  rw [preamble_of_discard hc, rxTransition_eq, if_pos ⟨hs, hr⟩, id]

/-- A selected row of the preamble keeps its byte when the preamble is kept. -/
theorem rxTransition_preamble_keep {c : Config} {s : State} (hc : c.rxKeepPreamble = true) (b : Byte)
    (hs : s.seqState = .awaitingFrame) (hr : s.rxState = .awaitingStart) :
    ∃ t, rxTransition .awaitingStart (preamble c b) s = .next t ∧
      ByteKept c.rxCap b .awaitingStart .awaitingFrame s t := by
  rw [preamble_of_keep hc]
  exact rxTransition_keep c b hs hr

/-- Settles O30: the three rows are the preamble's action on their byte, under either value of the parameter. -/
theorem preambleRows : Obligations.PreambleRows :=
  ⟨fun _ hs hr =>
     have hdiscard (b : Byte) := rxTransition_preamble_discard (c := Config.spec) rfl b hs hr
     ⟨hdiscard _, hdiscard _, hdiscard⟩,
   fun _ _ hc hs hr =>
     have hkeep (b : Byte) := rxTransition_preamble_keep hc b hs hr
     ⟨hkeep _, hkeep _, hkeep⟩⟩

/-! ## READFRAME takes one byte (R150, R164) -/

theorem execWith_readframe_takes {c : Config} {s : State} {b : Byte} {rest : List Byte}
    (hs : s.seqState = .awaitingFrame) (hsrc : s.env.source = b :: rest) :
    execWith c .readframe s = .next ((recognize c b (s.withSource rest)).withOutput none) := by
  simp only [execWith, execReadframe, hs, hsrc, State.withSource]

/-- Settles O31: the selected row is the recognizer's function, which is what READFRAME applies. -/
theorem readframeIsTheSelectedRow : Obligations.ReadframeIsTheSelectedRow := by
  intro s b rest hs hsrc
  refine ⟨_, (exec_eq_execWith _ s).trans (execWith_readframe_takes hs hsrc), ?_, by simp [State.withSource]⟩
  rw [exec_eq_execWith]
  exact execWith_decodeByte8 (s := s.withSource rest) b hs

/-! ## A byte that is no delimiter (R153 to R163) -/

/-- The recognizer on any other byte: kept, unless it is of a preamble that is discarded. -/
theorem recognize_not_delimiter (c : Config) {b : Byte} {s : State} (hb : b ≠ delimiter s.rxState) :
    recognize c b s = if s.rxState = .awaitingStart ∧ c.rxKeepPreamble = false then s else keep c b s := by
  unfold recognize
  cases hr : s.rxState with
  | awaitingStart =>
    rw [hr] at hb
    cases hk : c.rxKeepPreamble with
    | false => exact (if_neg hb).trans (congrFun (preamble_of_discard hk b) s)
    | true => exact (if_neg hb).trans (congrFun (preamble_of_keep hk b) s)
  | awaitingEnd | awaitingTerminator =>
    rw [hr] at hb
    exact if_neg hb

theorem recognize_not_delimiter_states (c : Config) {b : Byte} {s : State} (hb : b ≠ delimiter s.rxState) :
    (recognize c b s).rxState = s.rxState ∧ (recognize c b s).seqState = s.seqState := by
  rw [recognize_not_delimiter c hb]
  split
  · exact ⟨rfl, rfl⟩
  · exact ⟨keep_rxState c b s, keep_seqState c b s⟩

/-- What is kept of the bytes before the delimiter of a state: all, but of a preamble only when the parameter says so
(R153 to R155). -/
def keptBefore (c : Config) (st : RxState) (bs : List Byte) : List Byte :=
  if st = .awaitingStart ∧ c.rxKeepPreamble = false then [] else bs

@[simp] theorem keptBefore_nil (c : Config) (st : RxState) : keptBefore c st [] = [] := by
  simp [keptBefore]

theorem keptBefore_cons (c : Config) (st : RxState) (b : Byte) (bs : List Byte) :
    keptBefore c st (b :: bs) = keptBefore c st [b] ++ keptBefore c st bs := by
  unfold keptBefore
  split <;> rfl

/-! ## What has been received (R151, R165) -/

/-- One more byte behind a sequence written. -/
theorem Memory.writeRange_concat (m : Memory) (a : Nat) (bs : List Byte) (b : Byte) :
    Memory.writeRange m a (bs ++ [b]) = Memory.write (Memory.writeRange m a bs) (a + bs.length) b := by
  induction bs generalizing m a with
  | nil => rfl
  | cons x bs ih =>
    rw [List.cons_append, Memory.writeRange, ih, List.length_cons, Nat.add_right_comm, Nat.add_assoc]
    rfl

/-- The state in which the bytes `kept` have been kept from an empty receive buffer on, cut to `RX_CAP`, the
recognizer and the sequencer are in `rs` and `q`, `src` waits in the source and `o` was the last output. -/
def State.received (s : State) (c : Config) (kept : List Byte) (rs : RxState) (q : SeqState) (src : List Byte)
    (o : Option Output) : State :=
  { s with
    rxBuf := Memory.writeRange s.rxBuf 0 (kept.take c.rxCap)
    rxLen := min kept.length c.rxCap
    rxOvf := decide (c.rxCap < kept.length)
    rxState := rs
    seqState := q
    env := { s.env with source := src, output := o } }

/-- Before the first byte nothing has been received. -/
theorem State.received_nil (c : Config) {s : State} (hs : s.seqState = .awaitingFrame)
    (hr : s.rxState = .awaitingStart) (hlen : s.rxLen = 0) (hovf : s.rxOvf = false) :
    s.received c [] .awaitingStart .awaitingFrame s.env.source s.env.output = s := by
  simp only [State.received, List.take_nil, Memory.writeRange, List.length_nil, Nat.zero_min, Nat.not_lt_zero,
    decide_false]
  rw [← hs, ← hr, ← hovf, ← hlen]

/-- What RXBUF holds then: the bytes kept as far as they fit, and behind them what it held (R151). -/
theorem State.read_received (s : State) (c : Config) (kept : List Byte) (rs : RxState) (q : SeqState)
    (src : List Byte) (o : Option Output) (i : Nat) :
    Memory.read (s.received c kept rs q src o).rxBuf i =
      if i < min kept.length c.rxCap then kept[i]? else Memory.read s.rxBuf i := by
  simp only [State.received, Memory.read_writeRange, List.length_take, Nat.zero_le, true_and, Nat.zero_add,
    Nat.sub_zero, Nat.min_comm c.rxCap]
  split
  · rw [List.getElem?_take_of_lt (by omega)]
  · rfl

section
variable {c : Config} {s : State} {rs : RxState} {q : SeqState} {src rest : List Byte} {o : Option Output}

/-- `keep` appends the byte to what has been received (R151). -/
theorem keep_received (kept : List Byte) (b : Byte) :
    keep c b (s.received c kept rs q src o) = s.received c (kept ++ [b]) rs q src o := by
  have hlen : (s.received c kept rs q src o).rxLen = min kept.length c.rxCap := rfl
  by_cases hroom : kept.length < c.rxCap
  · have hfit : kept.length + 1 ≤ c.rxCap := hroom
    rw [keep, if_pos (by omega)]
    simp only [State.received, List.length_append, List.length_singleton, Memory.writeRange_concat, Nat.zero_add,
      List.take_of_length_le (l := kept ++ [b]) (by simpa using hfit), List.take_of_length_le hroom.le,
      Nat.min_eq_left hfit, Nat.min_eq_left hroom.le, hfit.not_gt, hroom.le.not_gt]
  · have hfull : c.rxCap ≤ kept.length := by omega
    have hover : c.rxCap < kept.length + 1 := by omega
    rw [keep, if_neg (by omega)]
    simp only [State.received, List.length_append, List.length_singleton, List.take_append_of_le_length hfull,
      Nat.min_eq_right hfull, Nat.min_eq_right hover.le, hover, decide_true]

/-- A byte that is no delimiter leaves both states, and is kept unless it is of a preamble that is discarded. -/
theorem recognize_received_not_delimiter (kept : List Byte) {b : Byte} (hb : b ≠ delimiter rs) :
    recognize c b (s.received c kept rs q src o) = s.received c (kept ++ keptBefore c rs [b]) rs q src o := by
  rw [recognize_not_delimiter c (s := s.received c kept rs q src o) hb, keep_received, keptBefore,
    apply_ite (fun kept' => s.received c (kept ++ kept') rs q src o), List.append_nil]
  rfl

/-- READFRAME on a byte before the delimiter. -/
theorem readframe_received_not_delimiter (kept : List Byte) {b : Byte} (hb : b ≠ delimiter rs) :
    execWith c .readframe (s.received c kept rs .awaitingFrame (b :: rest) o) =
      .next (s.received c (kept ++ keptBefore c rs [b]) rs .awaitingFrame rest none) := by
  rw [execWith_readframe_takes (b := b) (rest := rest) rfl rfl]
  exact congrArg (fun u => Host.Outcome.next (State.withOutput u none))
    (recognize_received_not_delimiter (c := c) (s := s) (q := .awaitingFrame) (src := rest) (o := o) kept hb)

/-- READFRAME on the delimiter. -/
theorem readframe_received_delimiter (kept : List Byte) :
    execWith c .readframe (s.received c kept rs .awaitingFrame (delimiter rs :: rest) o) =
      .next (s.received c (kept ++ [delimiter rs]) (nextRx rs) (nextSeq rs) rest none) := by
  rw [execWith_readframe_takes (b := delimiter rs) (rest := rest) rfl rfl]
  have hrow := recognize_delimiter c (s := s.received c kept rs .awaitingFrame rest o) rfl
  have hkeep := keep_received (c := c) (s := s) (rs := rs) (q := .awaitingFrame) (src := rest) (o := o) kept
    (delimiter rs)
  exact congrArg (fun u => Host.Outcome.next (State.withOutput u none))
    (hrow.trans (congrArg (fun u : State => { u with rxState := nextRx rs, seqState := nextSeq rs }) hkeep))

/-! ## A run of READFRAMEs (R165) -/

/-- READFRAMEs over the bytes before the delimiter. -/
theorem run_before_delimiter {bs : List Byte} (hbs : delimiter rs ∉ bs) (kept : List Byte) :
    ∃ o', execRun c (List.replicate bs.length .readframe) (s.received c kept rs .awaitingFrame (bs ++ rest) o) =
      some (s.received c (kept ++ keptBefore c rs bs) rs .awaitingFrame rest o') := by
  induction bs generalizing kept o with
  | nil => exact ⟨o, by simp [execRun]⟩
  | cons b bs ih =>
    obtain ⟨hb, hbs⟩ := List.ne_and_not_mem_of_not_mem_cons hbs
    obtain ⟨o', ho⟩ := ih (o := none) hbs (kept ++ keptBefore c rs [b])
    refine ⟨o', ?_⟩
    rw [keptBefore_cons, ← List.append_assoc, ← ho]
    simp only [List.length_cons, List.replicate_succ, execRun, List.cons_append,
      readframe_received_not_delimiter kept hb.symm]

/-- READFRAMEs up to the delimiter and over it. -/
theorem run_past_delimiter {bs : List Byte} (hbs : delimiter rs ∉ bs) (kept : List Byte) :
    execRun c (List.replicate (bs.length + 1) .readframe)
        (s.received c kept rs .awaitingFrame (bs ++ delimiter rs :: rest) o) =
      some (s.received c (kept ++ keptBefore c rs bs ++ [delimiter rs]) (nextRx rs) (nextSeq rs) rest none) := by
  obtain ⟨o', ho⟩ := run_before_delimiter (c := c) (s := s) (rest := delimiter rs :: rest) (o := o) hbs kept
  rw [List.replicate_succ']
  exact execRun_concat ho (readframe_received_delimiter _)

end

/-- Runs of one instruction, one after the other. -/
theorem execRun_replicate_add {c : Config} {i : Instr} {m n : Nat} {s t : State}
    (h : execRun c (List.replicate m i) s = some t) :
    execRun c (List.replicate (m + n) i) s = execRun c (List.replicate n i) t := by
  rw [List.replicate_add, execRun_append, h, Option.bind_some]

/-- READFRAMEs always complete, and outside AwaitingFrame they leave the sequencer where it is (R150). -/
theorem run_readframes_completes (c : Config) (n : Nat) (s : State) :
    ∃ t, execRun c (List.replicate n .readframe) s = some t ∧
      (s.seqState ≠ .awaitingFrame → t.seqState = s.seqState) := by
  induction n generalizing s with
  | zero => exact ⟨s, rfl, fun _ => rfl⟩
  | succ n ih =>
    obtain ⟨u, hu⟩ := execReadframe_completes c s
    obtain ⟨t, ht, hseq⟩ := ih u
    refine ⟨t, ?_, fun hs => ?_⟩
    · rw [List.replicate_succ, execRun, show execWith c .readframe s = .next u from hu]
      exact ht
    · obtain rfl := Host.Outcome.next.inj ((execReadframe_waits (.inl hs)).symm.trans hu)
      exact hseq hs

/-- A run of READFRAMEs that ends in AwaitingFrame has been there all along: READFRAME never returns to it. -/
theorem run_readframes_awaiting_before {c : Config} {m n : Nat} {s t : State} (hmn : m ≤ n)
    (ht : execRun c (List.replicate n .readframe) s = some t) (hseq : t.seqState = .awaitingFrame) :
    ∃ u, execRun c (List.replicate m .readframe) s = some u ∧ u.seqState = .awaitingFrame := by
  obtain ⟨u, hu, -⟩ := run_readframes_completes c m s
  obtain ⟨v, hv, hstuck⟩ := run_readframes_completes c (n - m) u
  have hrest := execRun_replicate_add (n := n - m) hu
  rw [Nat.add_sub_cancel' hmn, ht, hv] at hrest
  obtain rfl := Option.some.inj hrest
  refine ⟨u, hu, ?_⟩
  by_contra hne
  exact hne ((hstuck hne).symm.trans hseq)

section
variable {c : Config} {s : State} {P A B rest : List Byte} {o : Option Output}

/-- READFRAMEs over a frame up to its CR: all but the CR has been received, and the block still awaits the frame. -/
theorem run_up_to_terminator (hP : STX ∉ P) (hA : ETX ∉ A) (hB : CR ∉ B) :
    ∃ o', execRun c (List.replicate (P.length + 1 + (A.length + 1 + B.length)) .readframe)
        (s.received c [] .awaitingStart .awaitingFrame (P ++ STX :: (A ++ ETX :: (B ++ CR :: rest))) o) =
      some (s.received c ((if c.rxKeepPreamble then P else []) ++ [STX] ++ A ++ [ETX] ++ B) .awaitingTerminator
        .awaitingFrame (CR :: rest) o') := by
  have hstart : keptBefore c .awaitingStart P = if c.rxKeepPreamble then P else [] := by
    cases hk : c.rxKeepPreamble <;> simp [keptBefore, hk]
  have hstx := run_past_delimiter (c := c) (s := s) (rs := .awaitingStart)
    (rest := A ++ ETX :: (B ++ CR :: rest)) (o := o) hP []
  have hetx := run_past_delimiter (c := c) (s := s) (rs := .awaitingEnd) (rest := B ++ CR :: rest) (o := none) hA
    ([] ++ keptBefore c .awaitingStart P ++ [STX])
  obtain ⟨o', hbody⟩ := run_before_delimiter (c := c) (s := s) (rs := .awaitingTerminator) (rest := CR :: rest)
    (o := none) hB ([] ++ keptBefore c .awaitingStart P ++ [STX] ++ A ++ [ETX])
  refine ⟨o', (execRun_replicate_add hstx).trans ((execRun_replicate_add hetx).trans (hbody.trans ?_))⟩
  rw [hstart, List.nil_append]
  rfl

end

/-- Settles O33: past the STX, past the ETX and up to the CR the block awaits the frame, and the READFRAME of the CR
completes it. -/
theorem readframeDelivers : Obligations.ReadframeDelivers := by
  intro c s P A B rest raw hs hr hlen hovf hP hA hB hsrc hraw
  have hsource : s.env.source = P ++ STX :: (A ++ ETX :: (B ++ CR :: rest)) := by simp [hsrc, STX, ETX, CR]
  obtain ⟨o, hrun⟩ := run_up_to_terminator (c := c) (s := s) (rest := rest) (o := s.env.output) hP hA hB
  rw [← hsource, State.received_nil c hs hr hlen hovf] at hrun
  have hall := execRun_concat hrun (readframe_received_delimiter (rs := .awaitingTerminator) _)
  have hcount : P.length + A.length + B.length + 3 = P.length + 1 + (A.length + 1 + B.length) + 1 := by omega
  rw [hcount, List.replicate_succ']
  refine ⟨fun n hn => run_readframes_awaiting_before (by omega) hrun rfl, _, hall, ?_, fun i => ?_⟩
  · rw [hraw, hr]
    rfl
  · rw [State.read_received, hraw]
    rfl

/-! ## A stream without a frame (R165) -/

/-- The delimiters that the recognizer still has to see before the frame is complete. -/
def pendingDelimiters : RxState → List Byte
  | .awaitingStart => [STX, ETX, CR]
  | .awaitingEnd => [ETX, CR]
  | .awaitingTerminator => [CR]

/-- The block awaits a frame, and the source does not hold in order the delimiters that are still to come. -/
structure NoFrameAhead (s : State) : Prop where
  awaiting : s.seqState = .awaitingFrame
  incomplete : ¬ (pendingDelimiters s.rxState).Sublist s.env.source

/-- The delimiter of a state is the first of those to come; behind the last the frame is complete. -/
theorem pendingDelimiters_cases (st : RxState) :
    (nextSeq st = .awaitingFrame ∧ pendingDelimiters st = delimiter st :: pendingDelimiters (nextRx st)) ∨
      pendingDelimiters st = [delimiter st] := by
  cases st with
  | awaitingStart | awaitingEnd => exact .inl ⟨rfl, rfl⟩
  | awaitingTerminator => exact .inr rfl

/-- A byte taken from the source leaves no frame ahead where there was none. -/
theorem NoFrameAhead.after_byte {c : Config} {s : State} {b : Byte} {rest : List Byte} (h : NoFrameAhead s)
    (hsrc : s.env.source = b :: rest) : NoFrameAhead ((recognize c b (s.withSource rest)).withOutput none) := by
  obtain ⟨hs, hnot⟩ := h
  rw [hsrc] at hnot
  by_cases hb : b = delimiter s.rxState
  · subst hb
    rcases pendingDelimiters_cases s.rxState with ⟨hseq, hpending⟩ | hlast
    · rw [hpending, List.cons_sublist_cons] at hnot
      have hrow : recognize c (delimiter s.rxState) (s.withSource rest) =
          { keep c (delimiter s.rxState) (s.withSource rest) with
            rxState := nextRx s.rxState, seqState := nextSeq s.rxState } :=
        recognize_delimiter c (s := s.withSource rest) hs
      exact ⟨(congrArg State.seqState hrow).trans hseq, by
        rw [State.withOutput_rxState, State.withOutput_env_source, recognize_env, hrow]
        exact hnot⟩
    · exact absurd (by simp [hlast]) hnot
  · obtain ⟨hrx, hseq⟩ := recognize_not_delimiter_states c (s := s.withSource rest) hb
    exact ⟨hseq.trans hs, by
      rw [State.withOutput_rxState, State.withOutput_env_source, recognize_env, hrx]
      exact fun hsub => hnot (hsub.cons b)⟩

/-- READFRAME leaves no frame ahead where there was none: it waits, or takes one byte. -/
theorem NoFrameAhead.readframe {c : Config} {s : State} (h : NoFrameAhead s) :
    ∃ t, execWith c .readframe s = .next t ∧ NoFrameAhead t := by
  cases hsrc : s.env.source with
  | nil => exact ⟨_, execReadframe_waits (.inr hsrc), h.awaiting, h.incomplete⟩
  | cons b rest => exact ⟨_, execWith_readframe_takes h.awaiting hsrc, h.after_byte hsrc⟩

theorem NoFrameAhead.run {c : Config} {s : State} (h : NoFrameAhead s) (n : Nat) :
    ∃ t, execRun c (List.replicate n .readframe) s = some t ∧ NoFrameAhead t := by
  induction n with
  | zero => exact ⟨s, rfl, h⟩
  | succ n ih =>
    obtain ⟨u, hu, hahead⟩ := ih
    obtain ⟨t, ht, hahead⟩ := hahead.readframe (c := c)
    rw [List.replicate_succ']
    exact ⟨t, execRun_concat hu ht, hahead⟩

/-- A stream that holds a byte and then others in order is divided at the first occurrence of that byte. -/
theorem exists_split_of_cons_sublist {x : Byte} {p src : List Byte} (h : (x :: p).Sublist src) :
    ∃ front back, x ∉ front ∧ src = front ++ x :: back ∧ p.Sublist back := by
  obtain ⟨r₁, r₂, rfl, hmem, hsub⟩ := List.cons_sublist_iff.mp h
  obtain ⟨front, back, rfl, hfront⟩ := List.eq_append_cons_of_mem hmem
  exact ⟨front, back ++ r₂, hfront, by simp, List.sublist_append_of_sublist_right hsub⟩

/-- A stream with STX, ETX and CR in order begins with bytes of the form of R165. -/
theorem exists_frame_of_sublist {src : List Byte} (h : [STX, ETX, CR].Sublist src) :
    ∃ P A B rest, STX ∉ P ∧ ETX ∉ A ∧ CR ∉ B ∧ src = P ++ [STX] ++ A ++ [ETX] ++ B ++ [CR] ++ rest := by
  obtain ⟨P, afterStx, hP, rfl, hetx⟩ := exists_split_of_cons_sublist h
  obtain ⟨A, afterEtx, hA, rfl, hcr⟩ := exists_split_of_cons_sublist hetx
  obtain ⟨B, rest, hB, rfl, -⟩ := exists_split_of_cons_sublist hcr
  exact ⟨P, A, B, rest, hP, hA, hB, by simp⟩

/-- The first occurrence of a byte divides a stream in one way. -/
theorem split_at_first_unique {x : Byte} {front front' back back' : List Byte} (h : x ∉ front) (h' : x ∉ front')
    (heq : front ++ x :: back = front' ++ x :: back') : front = front' ∧ back = back' := by
  have hlen : front.length = front'.length := by
    have hidx := congrArg (List.idxOf x) heq
    rwa [List.idxOf_append_of_notMem h, List.idxOf_append_of_notMem h', List.idxOf_cons_self,
      List.idxOf_cons_self] at hidx
  obtain ⟨hfront, hback⟩ := List.append_inj heq hlen
  exact ⟨hfront, List.tail_eq_of_cons_eq hback⟩

/-- Settles O34: from a stream without the three delimiters in order READFRAME keeps `NoFrameAhead`, and each delimiter
divides the stream at its first occurrence. -/
theorem readframeNeedsAFrame : Obligations.ReadframeNeedsAFrame := by
  constructor
  · intro c s hs hr hnone n
    have hahead : NoFrameAhead s := by
      refine ⟨hs, fun hsub => ?_⟩
      rw [hr] at hsub
      obtain ⟨P, A, B, rest, hP, hA, hB, hsrc⟩ := exists_frame_of_sublist hsub
      exact hnone P A B rest hP hA hB hsrc
    obtain ⟨t, ht, hahead⟩ := hahead.run (c := c) n
    exact ⟨t, ht, hahead.awaiting⟩
  · intro P A B rest P' A' B' rest' hP hA hB hP' hA' hB' heq
    simp only [List.append_assoc, List.cons_append, List.nil_append] at heq
    obtain ⟨rfl, hetx⟩ := split_at_first_unique hP hP' heq
    obtain ⟨rfl, hcr⟩ := split_at_first_unique hA hA' hetx
    obtain ⟨rfl, rfl⟩ := split_at_first_unique hB hB' hcr
    exact ⟨rfl, rfl, rfl, rfl⟩

end Sys2Proof.Machine

/-! PROOFS. DECODE: the ten ways it ends, the order of its checks, what it accepts and the context it supplies, and
what CLASSIFY makes of a frame that fails or that answers another command. -/

namespace Sys2Proof.Machine

/-! ## The ways DECODE ends (R182 to R198) -/

/-- The frame has room for its fields and the three delimiters in their places (R184 to R187). -/
structure Delimited (f : List Byte) : Prop where
  length : 8 ≤ f.length
  start : byteAt f 0 = STX
  terminator : byteAt f (f.length - 1) = CR
  etx : byteAt f (f.length - 4) = ETX

/-- What DECODE supplies of a frame whose checksum has been computed: its length is the one expected (R197). -/
def Decoded.checked (f : List Byte) (r : DecodeResult) : Decoded :=
  ⟨r, lowerCmd (cmdField f), f.length, f.length, hexPair (chk (slice f 0 (f.length - 3))), chkField f⟩

/-- Each way DECODE ends: the checks passed, the one that failed, and everything that is supplied (R182 to R198). -/
inductive DecodeEnds (c : Config) (f : List Byte) : Bool → Decoded → Prop where
  | overflow : DecodeEnds c f true ⟨.frameError .overflow, Cmd.zero, 0, f.length, CharPair.zero, CharPair.zero⟩
  | tooShort (hshort : f.length < 8) :
      DecodeEnds c f false ⟨.frameError .tooShort, Cmd.zero, 0, f.length, CharPair.zero, CharPair.zero⟩
  | badStart (hlen : 8 ≤ f.length) (hstart : byteAt f 0 ≠ STX) :
      DecodeEnds c f false ⟨.frameError .badStart, Cmd.zero, 0, f.length, CharPair.zero, chkField f⟩
  | badTerminator (hlen : 8 ≤ f.length) (hstart : byteAt f 0 = STX) (hterm : byteAt f (f.length - 1) ≠ CR) :
      DecodeEnds c f false ⟨.frameError .badTerminator, Cmd.zero, 0, f.length, CharPair.zero, chkField f⟩
  | badEtx (hlen : 8 ≤ f.length) (hstart : byteAt f 0 = STX) (hterm : byteAt f (f.length - 1) = CR)
      (hetx : byteAt f (f.length - 4) ≠ ETX) :
      DecodeEnds c f false ⟨.frameError .badEtx, Cmd.zero, 0, f.length, CharPair.zero, chkField f⟩
  | unknownCommand (hf : Delimited f) (hunknown : catalogSize c (lowerCmd (cmdField f)) = none) :
      DecodeEnds c f false ⟨.frameError .unknownCommand, Cmd.zero, 0, f.length, CharPair.zero, chkField f⟩
  | lengthMismatch (hf : Delimited f) {n : Nat} (hsize : catalogSize c (lowerCmd (cmdField f)) = some n)
      (hlen : f.length - 8 ≠ n) :
      DecodeEnds c f false
        ⟨.frameError .lengthMismatch, lowerCmd (cmdField f), 8 + n, f.length, CharPair.zero, chkField f⟩
  | checksumMismatch (hf : Delimited f) (hsize : catalogSize c (lowerCmd (cmdField f)) = some (f.length - 8))
      (hchk : checksumFails c (chk (slice f 0 (f.length - 3))) (chkField f) = true) :
      DecodeEnds c f false (Decoded.checked f (.frameError .checksumMismatch))
  | badHexDigit (hf : Delimited f) (hsize : catalogSize c (lowerCmd (cmdField f)) = some (f.length - 8))
      (hchk : checksumFails c (chk (slice f 0 (f.length - 3))) (chkField f) = false)
      (hdata : parseWords c (dataField f) = none) :
      DecodeEnds c f false (Decoded.checked f (.frameError .badHexDigit))
  | accepted (hf : Delimited f) (hsize : catalogSize c (lowerCmd (cmdField f)) = some (f.length - 8))
      (hchk : checksumFails c (chk (slice f 0 (f.length - 3))) (chkField f) = false) {ws : List Word}
      (hdata : parseWords c (dataField f) = some ws) :
      DecodeEnds c f false (Decoded.checked f (.ok (lowerCmd (cmdField f)) ws))

/-- DECODE ends in one of the ten ways, whatever the parameters. -/
theorem decodeFrame_ends (c : Config) (f : List Byte) (ovf : Bool) : DecodeEnds c f ovf (decodeFrame c f ovf) := by
  unfold decodeFrame
  split
  · next hovf => exact hovf ▸ .overflow
  next hovf =>
  obtain rfl := Bool.eq_false_iff.mpr hovf
  split
  · next hshort => exact .tooShort hshort
  next hshort =>
  have hlen : 8 ≤ f.length := not_lt.mp hshort
  split
  · next hstart => exact .badStart hlen hstart
  next hstart =>
  split
  · next hterm => exact .badTerminator hlen (not_not.mp hstart) hterm
  next hterm =>
  split
  · next hetx => exact .badEtx hlen (not_not.mp hstart) (not_not.mp hterm) hetx
  next hetx =>
  have hf : Delimited f := ⟨hlen, not_not.mp hstart, not_not.mp hterm, not_not.mp hetx⟩
  cases hsize : catalogSize c (lowerCmd (cmdField f)) with
  | none =>
    rw [dispatchLookup, hsize]
    exact .unknownCommand hf hsize
  | some n =>
    rw [dispatchLookup, hsize]
    by_cases hn : f.length - 8 = n
    · subst hn
      simp only [Option.map_some, frameSizeOf, ne_eq, not_true_eq_false, if_false, Nat.add_sub_cancel' hlen]
      split
      · next hchk => exact .checksumMismatch hf hsize hchk
      next hchk =>
      split
      · next hdata => exact .badHexDigit hf hsize (Bool.eq_false_iff.mpr hchk) hdata
      · next hdata => exact .accepted hf hsize (Bool.eq_false_iff.mpr hchk) hdata
    · simp only [Option.map_some, ne_eq, hn, not_false_eq_true, if_true]
      exact .lengthMismatch hf hsize hn

/-- DECODE accepts or fails; a frame it cannot accept fails (R180). -/
theorem decodeFrame_fails_of_not_ok {c : Config} {f : List Byte} {ovf : Bool}
    (h : ∀ k ws, (decodeFrame c f ovf).result ≠ .ok k ws) : ∃ x, (decodeFrame c f ovf).result = .frameError x := by
  cases hr : (decodeFrame c f ovf).result with
  | ok k ws => exact absurd hr (h k ws)
  | frameError x => exact ⟨x, rfl⟩

/-- All that DECODE supplies of an accepted frame (R196, R197). -/
theorem decodeFrame_of_ok {c : Config} {f : List Byte} {ovf : Bool} {k : Cmd} {ws : List Word}
    (h : (decodeFrame c f ovf).result = .ok k ws) :
    decodeFrame c f ovf =
      ⟨.ok k ws, k, f.length, f.length, hexPair (chk (slice f 0 (f.length - 3))), chkField f⟩ := by
  have hends := decodeFrame_ends c f ovf
  generalize decodeFrame c f ovf = d at h hends
  cases hends with
  | accepted hf hsize hchk hdata =>
    obtain ⟨rfl, rfl⟩ := DecodeResult.ok.inj h
    rfl
  | _ => cases h

/-! ## The context (R197) -/

/-- Settles O17: each clause is read off the end that DECODE comes to. -/
theorem decodeContext : Obligations.DecodeContext := by
  intro c f ovf
  have hends := decodeFrame_ends c f ovf
  generalize decodeFrame c f ovf = d at hends
  cases hends with
  | overflow => simp [Cmd.zero, CharPair.zero]
  | tooShort hshort => simp [Cmd.zero, CharPair.zero, not_le.mpr hshort]
  | badStart hlen | badTerminator hlen | badEtx hlen => simp [Cmd.zero, CharPair.zero, chkField, hlen]
  | unknownCommand hf => simp [Cmd.zero, CharPair.zero, chkField, hf.length]
  | lengthMismatch hf hsize => simp [CharPair.zero, chkField, hf.length, hsize]
  | checksumMismatch hf hsize | badHexDigit hf hsize | accepted hf hsize =>
    simp [Decoded.checked, chkField, hf.length, hsize]

/-! ## The order of the checks (R182 to R195) -/

/-- The words of a DATA field in groups of four fail to parse exactly when a character is no hex digit (R195). -/
theorem parseWords_eq_none_iff {c : Config} : ∀ {d : List Byte}, d.length % 4 = 0 →
    (parseWords c d = none ↔ ∃ b ∈ d, hexVal c b = none)
  | [], _ => by simp [parseWords]
  | [_], h | [_, _], h | [_, _, _], h => by simp at h
  | g3 :: g2 :: g1 :: g0 :: rest, h => by
    have ih : parseWords c rest = none ↔ ∃ b ∈ rest, hexVal c b = none :=
      parseWords_eq_none_iff (by simpa [Nat.add_assoc] using h)
    have hgroup : parseWords c (g3 :: g2 :: g1 :: g0 :: rest) = none ↔
        unhexWord c g3 g2 g1 g0 = none ∨ parseWords c rest = none := by
      rw [parseWords]
      cases unhexWord c g3 g2 g1 g0 <;> cases parseWords c rest <;> simp
    rw [hgroup, unhexWord_eq_none_iff, ih]
    simp [or_assoc]

/-- The DATA field of a frame of the catalog's length is cut into groups of four (R66, R189). -/
theorem dataField_length_mod {c : Config} (hc : c.wf = true) {f : List Byte} {k : Cmd} (hf : 8 ≤ f.length)
    (hsize : catalogSize c k = some (f.length - 8)) : (dataField f).length % 4 = 0 := by
  obtain ⟨r, hr, -, hrsize⟩ := catalogSize_eq_some hsize
  obtain ⟨hmod, -, -⟩ := catalog_bounds hc hr
  have hlen : (dataField f).length = f.length - 4 - 4 := slice_length (by omega)
  omega

/-- The codes number the causes in the order of R31, so that a cause is known by its code. -/
theorem causeCode_injective {x y : Cause} (h : (causeCode x).toNat = (causeCode y).toNat) : x = y := by
  have hread (z : Cause) : Cause.ofNat (causeCode z).toNat = z := by cases z <;> rfl
  rw [← hread x, h, hread]

/-- Every check before that of the cause `x` passes, in the order of the causes' codes (R31, R182). -/
def PassesBefore (c : Config) (f : List Byte) (ovf : Bool) (x : Cause) : Prop :=
  ∀ y : Cause, (causeCode y).toNat < (causeCode x).toNat → ¬ checkFails c f ovf y

section
variable {c : Config} {f : List Byte} {ovf : Bool} {x y : Cause}

/-- The overflow check is the first. -/
theorem passesBefore_overflow : PassesBefore c f ovf .overflow := fun y hy => by
  obtain rfl : y = .none := causeCode_injective (Nat.lt_one_iff.mp hy)
  exact id

/-- One more check passed. -/
theorem PassesBefore.next (h : PassesBefore c f ovf x) (hx : ¬ checkFails c f ovf x)
    (hcode : (causeCode y).toNat = (causeCode x).toNat + 1) : PassesBefore c f ovf y := fun z hz => by
  rcases Nat.lt_succ_iff_lt_or_eq.mp (hcode ▸ hz) with hlt | heq
  · exact h z hlt
  · exact causeCode_injective heq ▸ hx

/-- The check of the digits is the last. -/
theorem PassesBefore.all (h : PassesBefore c f ovf .echoMismatch) (x : Cause) : ¬ checkFails c f ovf x := by
  cases x with
  | echoMismatch => exact id
  | _ => exact h _ (by decide)

/-- A delimited frame comes to the check of its command. -/
theorem Delimited.passesBefore (hf : Delimited f) : PassesBefore c f false .unknownCommand :=
  passesBefore_overflow.next (y := .tooShort) Bool.false_ne_true rfl
    |>.next (y := .badStart) (not_lt.mpr hf.length) rfl
    |>.next (y := .badTerminator) (not_not.mpr hf.start) rfl
    |>.next (y := .badEtx) (not_not.mpr hf.terminator) rfl
    |>.next (not_not.mpr hf.etx) rfl

/-- A delimited frame of a catalog command in its length comes to the check of its checksum. -/
theorem Delimited.passesBefore_checksum (hf : Delimited f)
    (hsize : catalogSize c (lowerCmd (cmdField f)) = some (f.length - 8)) :
    PassesBefore c f false .checksumMismatch :=
  hf.passesBefore.next (y := .lengthMismatch) (by simp [checkFails, hsize]) rfl
    |>.next (not_not.mpr hsize) rfl

/-- The cause that DECODE gives is the check that fails when all before it pass, and it accepts when all pass. -/
theorem decodeFrame_first_failing (hc : c.wf = true) :
    (∃ x, (decodeFrame c f ovf).result = .frameError x ∧ checkFails c f ovf x ∧ PassesBefore c f ovf x) ∨
    (∃ k ws, (decodeFrame c f ovf).result = .ok k ws ∧ ∀ x, ¬ checkFails c f ovf x) := by
  have hnoOvf : PassesBefore c f false .tooShort := passesBefore_overflow.next Bool.false_ne_true rfl
  have hends := decodeFrame_ends c f ovf
  generalize decodeFrame c f ovf = d at hends
  cases hends with
  | overflow => exact .inl ⟨_, rfl, rfl, passesBefore_overflow⟩
  | tooShort hshort => exact .inl ⟨_, rfl, hshort, hnoOvf⟩
  | badStart hlen hstart => exact .inl ⟨_, rfl, hstart, hnoOvf.next (not_lt.mpr hlen) rfl⟩
  | badTerminator hlen hstart hterm =>
    exact .inl ⟨_, rfl, hterm,
      hnoOvf.next (y := .badStart) (not_lt.mpr hlen) rfl |>.next (not_not.mpr hstart) rfl⟩
  | badEtx hlen hstart hterm hetx =>
    exact .inl ⟨_, rfl, hetx,
      hnoOvf.next (y := .badStart) (not_lt.mpr hlen) rfl
        |>.next (y := .badTerminator) (not_not.mpr hstart) rfl |>.next (not_not.mpr hterm) rfl⟩
  | unknownCommand hf hunknown => exact .inl ⟨_, rfl, hunknown, hf.passesBefore⟩
  | lengthMismatch hf hsize hlen =>
    exact .inl ⟨_, rfl, by simp [checkFails, hsize, hlen.symm],
      hf.passesBefore.next (by simp [checkFails, hsize]) rfl⟩
  | checksumMismatch hf hsize hchk => exact .inl ⟨_, rfl, hchk, hf.passesBefore_checksum hsize⟩
  | badHexDigit hf hsize hchk hdata =>
    exact .inl ⟨_, rfl, (parseWords_eq_none_iff (dataField_length_mod hc hf.length hsize)).mp hdata,
      (hf.passesBefore_checksum hsize).next (Bool.eq_false_iff.mp hchk) rfl⟩
  | accepted hf hsize hchk hdata =>
    have hdigits : ¬ checkFails c f false .badHexDigit := fun hbad => by
      have hnone := (parseWords_eq_none_iff (dataField_length_mod hc hf.length hsize)).mpr hbad
      exact Option.some_ne_none _ (hdata.symm.trans hnone)
    exact .inr ⟨_, _, rfl,
      ((hf.passesBefore_checksum hsize).next (y := .badHexDigit) (Bool.eq_false_iff.mp hchk) rfl
        |>.next hdigits rfl).all⟩

/-- Only one check is the first to fail. -/
theorem eq_of_first_failing (hx : checkFails c f ovf x) (hbefore : PassesBefore c f ovf x)
    (hy : checkFails c f ovf y) (hbefore' : PassesBefore c f ovf y) : x = y := by
  rcases Nat.lt_trichotomy (causeCode x).toNat (causeCode y).toNat with hlt | heq | hgt
  · exact absurd hx (hbefore' x hlt)
  · exact causeCode_injective heq
  · exact absurd hy (hbefore y hgt)

end

/-- Settles O15: DECODE gives the first check that fails, which is the only one there is, or it accepts and no check
fails. -/
theorem firstFailingCheckIsTheCause : Obligations.FirstFailingCheckIsTheCause := by
  intro c f ovf hc
  have haccepted : ∀ k ws, (decodeFrame c f ovf).result = .ok k ws →
      k = lowerCmd (cmdField f) ∧ parseWords c (dataField f) = some ws := fun k ws h => by
    obtain ⟨-, -, -, -, -, hk, -, -, hws⟩ := decodeFrame_ok h
    exact ⟨hk, hws⟩
  rcases decodeFrame_first_failing (f := f) (ovf := ovf) hc with ⟨x, hr, hx, hbefore⟩ | ⟨k, ws, hr, hpass⟩
  · refine ⟨fun y => ⟨fun h => ?_, fun ⟨hy, hbefore'⟩ => ?_⟩, ⟨fun ⟨k, ws, h⟩ => ?_, fun h => absurd hx (h x)⟩,
      haccepted⟩
    · obtain rfl := DecodeResult.frameError.inj (hr.symm.trans h)
      exact ⟨hx, hbefore⟩
    · rw [hr, eq_of_first_failing hx hbefore hy hbefore']
    · cases hr.symm.trans h
  · refine ⟨fun y => ⟨fun h => ?_, fun ⟨hy, _⟩ => absurd hy (hpass y)⟩, ⟨fun _ => hpass, fun _ => ⟨k, ws, hr⟩⟩,
      haccepted⟩
    cases hr.symm.trans h

/-! ## What DECODE accepts (R191, R196, R199) -/

/-- A delimited byte sequence whose CHK field is the rendering of its checksum is the frame of its CMD and DATA
fields (R64, R95). -/
theorem Delimited.eq_frameBytes {f : List Byte} (hf : Delimited f)
    (hchk : chkField f = hexPair (chk (slice f 0 (f.length - 3)))) :
    f = frameBytes (cmdField f) (dataField f) := by
  obtain ⟨a, k, d, e, p, z, rfl⟩ := exists_framed hf.length
  obtain ⟨-, hstart, hterm, hetx⟩ := hf
  rw [framed_length] at hterm hetx hchk
  rw [show 8 + d.length - 1 = 7 + d.length by omega, byteAt_framed_terminator] at hterm
  rw [show 8 + d.length - 4 = 4 + d.length by omega, byteAt_framed_etx] at hetx
  rw [show 8 + d.length - 3 = 5 + d.length by omega, slice_framed_body, chkField_framed] at hchk
  rw [byteAt_framed_start] at hstart
  subst hstart hterm hetx hchk
  rw [cmdField_framed, dataField_framed, frameBytes_eq_framed]
  rfl

/-- What the dispatcher reports of a code that has a size (R211, R212). -/
theorem dispatchLookup_of_catalogSize {c : Config} {k : Cmd} {n : Nat} (h : catalogSize c (lowerCmd k) = some n) :
    dispatchLookup c k = some ⟨lowerCmd k, n, 8 + n, n / 4⟩ := by
  rw [dispatchLookup, h]
  rfl

/-- Settles O16: an accepted frame is the frame of its own fields, and a frame that is built passes the checks on its
layout and its checksum. -/
theorem decodeAcceptsExactly : Obligations.DecodeAcceptsExactly := by
  intro c f k ws _ hstrict
  constructor
  · intro h
    obtain ⟨-, hlen, hstart, hterm, hetx, hk, hsize, hchk, hws⟩ := decodeFrame_ok h
    obtain ⟨hcompare, -⟩ := checksumComparison c (chk (slice f 0 (f.length - 3))) (chkField f)
    have hdata : (dataField f).length = f.length - 8 := slice_length (by omega)
    have hwords := parseWords_length hws
    exact ⟨cmdField f, dataField f,
      Delimited.eq_frameBytes ⟨hlen, hstart, hterm, hetx⟩ ((hcompare hstrict).mp hchk), hk.symm,
      hdata ▸ hsize, hws, by omega⟩
  · rintro ⟨cmd, d, rfl, rfl, hsize, hws, -⟩
    rw [decodeFrame_frameBytes d (dispatchLookup_of_catalogSize hsize), if_neg (not_not.mpr rfl), hws]
    rfl

/-- An accepted frame has the length that a row of the catalog gives its code (R190, R191). -/
theorem decodeFrame_ok_row {c : Config} {f : List Byte} {ovf : Bool} {k : Cmd} {ws : List Word}
    (h : (decodeFrame c f ovf).result = .ok k ws) : ∃ r ∈ c.catalog, r.code = k ∧ f.length = 8 + r.size := by
  obtain ⟨-, hlen, -, -, -, -, hsize, -, -⟩ := decodeFrame_ok h
  obtain ⟨r, hr, hcode, hrsize⟩ := catalogSize_eq_some hsize
  exact ⟨r, hr, hcode, by omega⟩

/-- Settles O18: the frame is longer than any that the catalog admits, and the overflow check is the first. -/
theorem overflowKeepsTheKind : Obligations.OverflowKeepsTheKind := by
  refine fun c g hc hlong => ⟨decodeFrame_fails_of_not_ok fun k ws h => ?_, rfl⟩
  obtain ⟨r, hr, -, hlen⟩ := decodeFrame_ok_row h
  obtain ⟨-, -, hfits⟩ := catalog_bounds hc hr
  omega

/-- A code of a well-formed catalog is in lowercase already (R228). -/
theorem lowerCmd_of_mem {c : Config} (hc : c.wf = true) {r : CatalogRow} (hr : r ∈ c.catalog) :
    lowerCmd r.code = r.code := by
  simp only [Config.wf, Config.catalogOk, isLowerLetter, Bool.and_eq_true, decide_eq_true_eq, List.all_eq_true] at hc
  obtain ⟨⟨-, ⟨hrows, -⟩, -⟩, -⟩ := hc
  obtain ⟨⟨⟨⟨⟨⟨h0, -⟩, ⟨h1, -⟩⟩, ⟨h2, -⟩⟩, -⟩, -⟩, -⟩ := hrows r hr
  have hlower {b : Byte} (hb : 0x61 ≤ b.toNat) : lowerByte b = b := if_neg (by omega)
  rw [lowerCmd, hlower h0, hlower h1, hlower h2]

/-- The one length that DECODE accepts for a row of the catalog, which the frame of zero words has (R191). -/
theorem accepted_length_iff {c : Config} (hc : c.wf = true) {r : CatalogRow} (hr : r ∈ c.catalog) (n : Nat) :
    (∃ f ws, f.length = n ∧ (decodeFrame c f false).result = .ok r.code ws) ↔ n = 8 + r.size := by
  constructor
  · rintro ⟨f, ws, rfl, h⟩
    obtain ⟨r', hr', hcode, hlen⟩ := decodeFrame_ok_row h
    obtain rfl := List.inj_on_of_nodup_map (catalog_nodup hc) hr' hr hcode
    exact hlen
  · rintro rfl
    obtain ⟨hmod, -, -⟩ := catalog_bounds hc hr
    have hwords : 4 * (List.replicate (r.size / 4) (0 : Word)).length = r.size := by
      rw [List.length_replicate]
      omega
    refine ⟨_, _, ?_, decodeFrame_frameBytes_words hc hr (lowerCmd_of_mem hc hr) hwords⟩
    rw [frameBytes_length, flatMap_hexWord_length, hwords]

/-- The values the spec takes are admitted (R8, R228). -/
theorem spec_wf : Config.spec.wf = true := by decide

/-- Settles O19: an accepted frame has the length of its row, and the rows of the source's catalog have four sizes. -/
theorem oneLengthPerCommand : Obligations.OneLengthPerCommand := by
  refine ⟨fun c f ovf n hsize => ⟨?_, fun hne => decodeFrame_fails_of_not_ok fun k ws h => hne ?_⟩,
    fun c hc r hr n => accepted_length_iff hc hr n, fun n => ?_⟩
  · exact ⟨_, dispatchLookup_of_catalogSize hsize, rfl, rfl⟩
  · obtain ⟨-, hlen, -, -, -, rfl, hsize', -, -⟩ := decodeFrame_ok h
    have hrow := Option.some.inj (hsize.symm.trans hsize')
    omega
  · have hsizes : ∀ m, m ∈ [8, 12, 28, 32] ↔ ∃ r ∈ Config.spec.catalog, m = 8 + r.size := fun m => by
      simp [Config.spec, sourceCatalog]
      omega
    rw [hsizes]
    constructor
    · rintro ⟨f, k, ws, rfl, h⟩
      obtain ⟨r, hr, -, hlen⟩ := decodeFrame_ok_row h
      exact ⟨r, hr, hlen⟩
    · rintro ⟨r, hr, hn⟩
      obtain ⟨f, ws, hlen, h⟩ := (accepted_length_iff spec_wf hr n).mpr hn
      exact ⟨f, r.code, ws, hlen, h⟩

/-! ## CLASSIFY of what DECODE answers (R270 to R274) -/

/-- In Decoded CLASSIFY ends the exchange with the outcome of the frame that RXBUF holds. -/
theorem classify_ends {c : Config} {s : State} {f : List Byte} (hs : s.seqState = .decoded)
    (hf : HoldsFrame c.rxCap s f) :
    ∃ t, execWith c .classify s = .next t ∧
      ExchangeEnded (outcome c s.lastCmd (decodeFrame c f s.rxOvf) s.res) s t :=
  ⟨_, classifyFrame_decoded hs (rawFrame_of_holdsFrame hf), rfl⟩

theorem outcome_of_frameError {d : Decoded} {x : Cause} (c : Config) (last : Cmd) (r : Result)
    (h : d.result = .frameError x) : outcome c last d r = (r.withContext d).frameError x := by
  simp [outcome, h]

/-- A frame of another command is an echo mismatch where the echo is checked (R272). -/
theorem outcome_of_mismatch {c : Config} {last k : Cmd} {d : Decoded} {ws : List Word} (r : Result)
    (h : d.result = .ok k ws) (hk : k ≠ sentinel) (hne : k ≠ lowerCmd last) (hecho : c.echoCheck = true) :
    outcome c last d r = (r.withContext d).frameError .echoMismatch := by
  simp [outcome, h, hk, hne, hecho]

/-- A frame that is no "hxx" delivers its words where its code is the request's or is not checked (R272). -/
theorem outcome_of_success {c : Config} {last k : Cmd} {d : Decoded} {ws : List Word} (r : Result)
    (h : d.result = .ok k ws) (hk : k ≠ sentinel) (hecho : c.echoCheck = true → k = lowerCmd last) :
    outcome c last d r = (r.withContext d).success ws := by
  simp only [outcome, h, if_neg hk]
  exact if_neg fun ⟨hcheck, hne⟩ => hne (hecho hcheck)

/-- Settles O37: the outcome of a failed frame writes the cause and the context of DECODE. -/
theorem classifyFrameError : Obligations.ClassifyFrameError := by
  intro s f x hs hf hx
  obtain ⟨t, ht, hended⟩ := classify_ends (c := Config.spec) hs hf
  obtain ⟨hact, -⟩ := decodeFrame_context Config.spec f s.rxOvf
  obtain ⟨hlen, -⟩ := hf
  refine ⟨_, t, (exec_eq_execWith _ _).trans ht, hended, ?_⟩
  rw [outcome_of_frameError _ _ _ hx, hlen, ← hact]
  rfl

/-- Settles O38: the outcome of an accepted frame of another command, under each value of `ECHO_CHECK`. -/
theorem echoComparison : Obligations.EchoComparison := by
  intro c s f k ws hs hf hok hk hne
  obtain ⟨t, ht, hended⟩ := classify_ends hs hf
  refine ⟨_, t, ht, hended, fun hecho => ?_, fun hecho => ?_⟩
  · rw [outcome_of_mismatch _ hok hk hne hecho, decodeFrame_of_ok hok]
    rfl
  · rw [outcome_of_success _ hok hk (fun h => absurd h (by simp [hecho])), decodeFrame_of_ok hok]
    rfl

end Sys2Proof.Machine

/-! PROOFS. The dispatcher: what it reports of the 15 commands in every spelling, and which CMD fields it reports. -/

namespace Sys2Proof.Machine

/-! ## What the dispatcher reports (R210 to R212) -/

/-- The source's catalog has a row for each command: its code in lowercase and the size of its response (R210). -/
theorem commandRow_mem_catalog (m : Command) :
    ⟨cmdOfBits (commandBits m ⟨true, true, true⟩), responseSize m⟩ ∈ Config.spec.catalog := by
  cases m <;> decide

/-- Every spelling of a command folds to the one with three lowercase letters (R98, R106). -/
theorem lowerCmd_commandBits (m : Command) (sp : Spelling) :
    lowerCmd (cmdOfBits (commandBits m sp)) = cmdOfBits (commandBits m ⟨true, true, true⟩) :=
  calc lowerCmd (cmdOfBits (commandBits m sp))
    _ = lowerCmd (cmdOfBits (commandMatch m)) := lowerCmd_eq_iff_spelling.mpr ⟨sp, rfl⟩
    _ = lowerCmd (cmdOfBits (commandBits m ⟨true, true, true⟩)) := (lowerCmd_eq_iff_spelling.mpr ⟨_, rfl⟩).symm
    _ = cmdOfBits (commandBits m ⟨true, true, true⟩) := lowerCmd_of_mem spec_wf (commandRow_mem_catalog m)

/-- The dispatcher reports a command's catalog facts, however its code is spelled (R211, R212). -/
theorem dispatchLookup_commandBits (m : Command) (sp : Spelling) :
    dispatchLookup Config.spec (cmdOfBits (commandBits m sp)) =
      some ⟨cmdOfBits (commandBits m ⟨true, true, true⟩), responseSize m, 8 + responseSize m, responseSize m / 4⟩ :=
  dispatchLookup_of_mem spec_wf (commandRow_mem_catalog m) (lowerCmd_commandBits m sp)

/-- Before the dispatcher the row of a command gives what the dispatcher reports of its spelling (R212; log entries 8
and 9). -/
theorem execWith_commandInstr_dispatch (c : Config) (m : Command) (sp : Spelling) (s : State) :
    execWith c (commandInstr m sp .dispatch) s =
      giveValue (.entry (dispatchLookup c (cmdOfBits (commandBits m sp)))) s :=
  execWith_commandInstr c m sp .dispatch s

/-- The dispatcher reports nothing of a field exactly when it is no spelling of a command (R108, R212). -/
theorem dispatchLookup_eq_none_iff {k : Cmd} :
    dispatchLookup Config.spec k = none ↔ cmdToBits k ∉ knownFields := by
  rw [← isSome_decodeCommand_iff, decodeCommand_isSome, ← dispatchLookup_isSome, Option.not_isSome_iff_eq_none]

/-- Settles O21: every spelling of a command is looked up in the row that the catalog has for it, and the fields that
are looked up are those that the decoder has a row for. -/
theorem dispatcherReports : Obligations.DispatcherReports := by
  refine ⟨fun m sp s => ?_, fun _ => dispatchLookup_eq_none_iff⟩
  rw [exec_eq_execWith, execWith_commandInstr_dispatch, dispatchLookup_commandBits]
  rfl

end Sys2Proof.Machine

/-! PROOFS. The device error codes: the message and the index of a code, the rows of the codes, and the "hxx" frame
that carries one. -/

namespace Sys2Proof.Machine

/-! ## The error table (R240, R249) -/

theorem errtab_codes {c : Config} (hc : c.wf = true) : c.errtab.map ErrorRow.code = [1, 2, 3, 4, 5, 6, 7] := by
  simp only [Config.wf, Bool.and_eq_true, decide_eq_true_eq] at hc
  obtain ⟨-, hcodes⟩ := hc
  exact hcodes

theorem errtab_code_bounds {c : Config} (hc : c.wf = true) {r : ErrorRow} (hr : r ∈ c.errtab) :
    1 ≤ r.code ∧ r.code ≤ 7 := by
  have hmem : r.code ∈ [1, 2, 3, 4, 5, 6, 7] := errtab_codes hc ▸ List.mem_map_of_mem hr
  simp only [List.mem_cons, List.not_mem_nil, or_false] at hmem
  omega

/-- The code of a row is one that a DataWord holds. -/
theorem errtab_code_toNat {c : Config} (hc : c.wf = true) {r : ErrorRow} (hr : r ∈ c.errtab) :
    (BitVec.ofNat 16 r.code).toNat = r.code := by
  have hbounds := errtab_code_bounds hc hr
  rw [BitVec.toNat_ofNat]
  omega

/-- The code of a row is its own index (R34, R249). -/
theorem msgIndex_of_mem {c : Config} (hc : c.wf = true) {r : ErrorRow} (hr : r ∈ c.errtab) :
    msgIndex (BitVec.ofNat 16 r.code) = r.code := by
  rw [msgIndex, errtab_code_toNat hc hr]
  exact if_pos (errtab_code_bounds hc hr)

/-- The message of a row's code is that row's: no other row has the code (R240). -/
theorem errMsg_of_mem {c : Config} (hc : c.wf = true) {r : ErrorRow} (hr : r ∈ c.errtab) :
    errMsg c (BitVec.ofNat 16 r.code) = some r.message := by
  rw [errMsg, errtab_code_toNat hc hr]
  have hfound : (c.errtab.find? (fun x => x.code == r.code)).isSome :=
    List.find?_isSome.mpr ⟨r, hr, beq_self_eq_true r.code⟩
  obtain ⟨r', hr'⟩ := Option.isSome_iff_exists.mp hfound
  have hcode : r'.code = r.code := by simpa using List.find?_some hr'
  have hnodup : (c.errtab.map ErrorRow.code).Nodup := errtab_codes hc ▸ by decide
  obtain rfl := List.inj_on_of_nodup_map hnodup (List.mem_of_find?_eq_some hr') hr hcode
  rw [hr', Option.map_some]

/-- A code outside the table has no message (R249). -/
theorem errMsg_of_unmapped {c : Config} (hc : c.wf = true) {e : Word} (he : msgIndex e = 0) : errMsg c e = none := by
  have hrange := msgIndex_eq_zero_iff.mp he
  have hnone : c.errtab.find? (fun r => r.code == e.toNat) = none := List.find?_eq_none.mpr fun r hr hcode => by
    have hbounds := errtab_code_bounds hc hr
    exact hrange (beq_iff_eq.mp hcode ▸ hbounds)
  rw [errMsg, hnone, Option.map_none]

/-! ## The rows of the error codes (R241 to R249) -/

/-- The rows with an error code for their code have the meaning of that error code (R240). -/
theorem execWith_of_encode_errcode16 {c : Config} {i : Instr} {e : Word} {s : State}
    (h : encode i = .errcode16 e) : execWith c i s = errorMeaning e c s := by
  cases i <;> cases h <;> rfl

/-- The row of a code in the table gives the code as index, and its message (R241 to R247). -/
theorem execWith_mapped_row {c : Config} (hc : c.wf = true) {r : ErrorRow} (hr : r ∈ c.errtab) {i : Instr}
    {s : State} (h : encode i = .errcode16 (BitVec.ofNat 16 r.code)) :
    execWith c i s = .next (s.withOutput (some (.returned
      (.deviceError (BitVec.ofNat 16 r.code) r.code (some r.message))))) := by
  rw [execWith_of_encode_errcode16 h, errorMeaning, msgIndex_of_mem hc hr, errMsg_of_mem hc hr]
  rfl

/-- Any other code has the index 0 and no message (R249). -/
theorem execWith_unmapped_row {c : Config} (hc : c.wf = true) {e : Word} {i : Instr} {s : State}
    (he : msgIndex e = 0) (h : encode i = .errcode16 e) :
    execWith c i s = .next (s.withOutput (some (.returned (.deviceError e 0 none)))) := by
  rw [execWith_of_encode_errcode16 h, errorMeaning, he, errMsg_of_unmapped hc he]
  rfl

/-- Settles O43: the seven codes are those of the table, and every other code has the index 0. -/
theorem errorCodesComplete : Obligations.ErrorCodesComplete := by
  intro s
  simp only [exec_eq_execWith]
  refine ⟨fun x hx => ?_, fun e he => ?_⟩
  · have hrow : ⟨x.2.1, x.2.2⟩ ∈ Config.spec.errtab := by
      fin_cases hx <;> decide
    have hcode : encode x.1 = .errcode16 (BitVec.ofNat 16 x.2.1) := by
      fin_cases hx <;> rfl
    exact execWith_mapped_row spec_wf hrow hcode
  · exact execWith_unmapped_row spec_wf (msgIndex_eq_zero_iff.mpr (by omega)) rfl

/-! ## The frame of an error code (R251, R271) -/

/-- Every well-formed catalog has the sentinel, with one word (R228). -/
theorem sentinelRow_mem_catalog {c : Config} (hc : c.wf = true) : ⟨sentinel, 4⟩ ∈ c.catalog := by
  simp only [Config.wf, Config.catalogOk, Bool.and_eq_true, List.contains_iff_mem] at hc
  obtain ⟨⟨-, -, hmem⟩, -⟩ := hc
  exact hmem

/-- The "hxx" frame of an error code is read back (R138). -/
theorem decodeFrame_errorFrame {c : Config} (hc : c.wf = true) (e : Word) :
    (decodeFrame c (frameBytes sentinel (hexWord e)) false).result = .ok sentinel [e] := by
  have hrow := sentinelRow_mem_catalog hc
  have hread := decodeFrame_frameBytes_words (ws := [e]) hc hrow (lowerCmd_of_mem hc hrow) rfl
  rwa [List.flatMap_singleton] at hread

/-- A frame of the sentinel is a device error, whatever was requested (R271). -/
theorem outcome_of_sentinel {d : Decoded} {e : Word} (c : Config) (last : Cmd) (r : Result)
    (h : d.result = .ok sentinel [e]) : outcome c last d r = (r.withContext d).deviceError e := by
  simp [outcome, h]

/-- CLASSIFY of the frame of a code in the table (R241 to R247). -/
theorem classify_errorFrame {c : Config} (hc : c.wf = true) {r : ErrorRow} (hr : r ∈ c.errtab) {s : State}
    (hs : s.seqState = .decoded) (hovf : s.rxOvf = false)
    (hf : HoldsFrame c.rxCap s (frameBytes sentinel (hexWord (BitVec.ofNat 16 r.code)))) :
    ∃ t, execWith c .classify s = .next t ∧ t.res.kind = .deviceError ∧ t.res.errcode.toNat = r.code ∧
      t.res.msg = r.code ∧ errMsg c t.res.errcode = some r.message := by
  obtain ⟨t, ht, hended⟩ := classify_ends hs hf
  rw [hovf, outcome_of_sentinel _ _ _ (decodeFrame_errorFrame hc _)] at hended
  subst hended
  exact ⟨_, ht, rfl, errtab_code_toNat hc hr, msgIndex_of_mem hc hr, errMsg_of_mem hc hr⟩

/-- Settles O39: the seven frames are those that FRAME builds from the sentinel and a code of the table. -/
theorem deviceErrorFrames : Obligations.DeviceErrorFrames := by
  intro x hx s hs hovf hf
  have hrow : ⟨x.1, x.2.2.2.2⟩ ∈ Config.spec.errtab := by
    fin_cases hx <;> decide
  have hframe : [0x02, 0x68, 0x78, 0x78, 0x30, 0x30, 0x30, x.2.1, 0x03, x.2.2.1, x.2.2.2.1, 0x0D] =
      frameBytes sentinel (hexWord (BitVec.ofNat 16 x.1)) := by
    fin_cases hx <;> rfl
  rw [hframe] at hf
  rw [exec_eq_execWith]
  exact classify_errorFrame spec_wf hrow hs hovf hf

end Sys2Proof.Machine

/-! PROOFS. The exchange sequencer: when a request is accepted, how an exchange ends, which event a step takes, and an
exchange that goes well from its request to its words. -/

namespace Sys2Proof.Machine

/-! ## Requests (R261, R262) -/

/-- Settles O23: EXCHANGE start of a frame that is laid out as R64 says. -/
theorem exchangeStarts : Obligations.ExchangeStarts := by
  intro k p s hs hp
  obtain ⟨t, hstarted, ht⟩ := exchangeStart_started (c := Config.spec) k hs hp
  exact ⟨_, t, frameLayout_frameBytes _ _, hstarted, ht⟩

/-- Outside Idle a request is refused and changes nothing (R261). -/
theorem exchangeStart_busy {c : Config} {s : State} (k : Cmd) (p : Payload) (hs : s.seqState ≠ .idle) :
    exchangeStart c k p s = .next (s.withOutput (some (.refused .busy))) := by
  rw [exchangeStart_eq, if_pos hs]

/-- The instruction of a request is EXCHANGE start of some three bytes, whichever row it is (log entry 8). -/
theorem execWith_request {i : Instr} {p : Payload}
    (hi : (∃ k, i = .exchange k p) ∨ ∃ m sp, i = commandInstr m sp (.request p)) (c : Config) :
    ∃ k, ∀ s, execWith c i s = exchangeStart c k p s := by
  rcases hi with ⟨k, rfl⟩ | ⟨m, sp, rfl⟩
  · exact ⟨k, fun _ => rfl⟩
  · exact ⟨_, execWith_commandInstr_request c m sp p⟩

/-- Settles O24: each request is EXCHANGE start, which asks for Idle first and for the length of DATA next. -/
theorem requestRefused : Obligations.RequestRefused := by
  intro c p s i hi
  obtain ⟨k, hk⟩ := execWith_request hi c
  rw [hk]
  refine ⟨exchangeStart_busy k p, exchangeStart_tooLong k, fun hs hp => ?_⟩
  obtain ⟨t, ⟨hstate, -⟩, ht⟩ := exchangeStart_started (c := c) k hs hp
  exact ⟨t, ht, congrArg State.seqState hstate, congrArg (fun u => u.env.output) hstate⟩

/-! ## The end of an exchange (R270 to R277, R357) -/

/-- Settles O40: the two waiting states of the sequencer, and the other two. -/
theorem deadlineStep : Obligations.DeadlineStep := by
  refine ⟨fun s hs => ?_, fun s hs => ?_⟩
  · exact (deadlineExpired_eq s).trans (congrArg Host.Outcome.next (if_pos hs))
  · have hnot : ¬(s.seqState = .sent ∨ s.seqState = .awaitingFrame) := by rcases hs with hs | hs <;> simp [hs]
    exact (deadlineExpired_eq s).trans (congrArg Host.Outcome.next (if_neg hnot))

/-- Settles O35: the outcome of an accepted frame of the command requested, with the context of that frame. -/
theorem classifySuccess : Obligations.ClassifySuccess := by
  intro s f k ws hs hf hok hk hecho
  obtain ⟨t, ht, hended⟩ := classify_ends (c := Config.spec) hs hf
  refine ⟨_, t, (exec_eq_execWith _ _).trans ht, hended, ?_⟩
  rw [outcome_of_success _ hok hk (fun _ => hecho), decodeFrame_of_ok hok]
  rfl

/-- An accepted "hxx" frame has 12 bytes: its row of the catalog has one word (R191, R228). -/
theorem length_of_errorFrame {c : Config} (hc : c.wf = true) {f : List Byte} {ovf : Bool} {ws : List Word}
    (h : (decodeFrame c f ovf).result = .ok sentinel ws) : f.length = 12 := by
  obtain ⟨rfl, -⟩ := decodeFrame_ok h
  exact (accepted_length_iff hc (sentinelRow_mem_catalog hc) f.length).mp ⟨f, ws, rfl, h⟩

/-- Settles O36: the outcome of an accepted "hxx" frame, which has 12 bytes. -/
theorem classifyDeviceError : Obligations.ClassifyDeviceError := by
  intro s f e hs hf hok
  obtain ⟨t, ht, hended⟩ := classify_ends (c := Config.spec) hs hf
  have hlen : f.length = 12 := length_of_errorFrame spec_wf hok
  refine ⟨_, t, (exec_eq_execWith _ _).trans ht, hended, ?_⟩
  rw [outcome_of_sentinel _ _ _ hok, decodeFrame_of_ok hok, hlen]
  rfl

/-- CLASSIFY always decides an outcome (R270). -/
theorem outcome_kind_ne_none (c : Config) (last : Cmd) (d : Decoded) (r : Result) :
    (outcome c last d r).kind ≠ .none := by
  rcases outcome_cases c last d r with
    ⟨x, -, ho⟩ | ⟨ws, -, ho⟩ | ⟨k, ws, -, -, -, -, ho⟩ | ⟨k, ws, -, -, -, ho⟩ <;> simp [ho]

/-- Whatever outputs `Done` ends a running exchange with an outcome, and leaves the recognizer in AwaitingStart
(R274, R277). -/
theorem Effect.ended_of_done {c : Config} {s t : State} (hinv : Inv c s) (he : Effect c s t)
    (hdone : t.env.output = some .done) :
    s.seqState ≠ .idle ∧ ∃ r, r.kind ≠ .none ∧ t = { endExchange r s with rxState := .awaitingStart } := by
  cases he with
  | quiet o hd _ => exact absurd hdone hd
  | classify f hs _ =>
    have hseq := hinv.sequencer
    simp only [SequencerOk, hs] at hseq
    obtain ⟨hr, -⟩ := hseq
    exact ⟨by simp [hs], _, outcome_kind_ne_none _ _ _ _, by rw [← hr]; rfl⟩
  | deadline hs => exact ⟨by rcases hs with hs | hs <;> simp [hs], _, by simp, rfl⟩
  | start | send | discard | stay | stx | etx | cr | reset => simp at hdone

/-- Settles O53: the environment's move and the taking of an event keep the invariant, and of the effects only those
of CLASSIFY and DEADLINE output `Done`. -/
theorem doneMeansAnOutcome : Obligations.DoneMeansAnOutcome := by
  intro c s t hinv hstep hdone
  rcases stepWith_effect hstep with ⟨-, rfl⟩ | ⟨x, -, he⟩
  · simp at hdone
  · obtain ⟨hrunning, r, hkind, rfl⟩ := he.ended_of_done (hinv.arrive.take x) hdone
    exact ⟨hrunning, rfl, rfl, hkind, rfl, rfl, rfl, rfl, rfl⟩

/-! ## Which event a step takes (R356) -/

section
variable {a : State} {x : Code}

theorem selectEvent_reset (hr : a.env.resetStrobe = true) : selectEvent a = some .resetEvent := by
  rw [selectEvent, if_pos hr]

theorem selectEvent_deadline (hr : a.env.resetStrobe = false) (hd : a.env.deadlineStrobe = true) :
    selectEvent a = some .deadlineEvent := by
  simp [selectEvent, hr, hd]

/-- Without a strobe the enabled event comes first. -/
theorem selectEvent_enabled (hr : a.env.resetStrobe = false) (hd : a.env.deadlineStrobe = false)
    (hx : enabledEvent a = some x) : selectEvent a = some x := by
  simp [selectEvent, hr, hd, hx]

/-- What is below the enabled events is taken when none of them is presented. -/
theorem selectEvent_pending (hr : a.env.resetStrobe = false) (hd : a.env.deadlineStrobe = false)
    (hnone : enabledEvent a = none) : selectEvent a = pendingCode a := by
  simp [selectEvent, hr, hd, hnone]

theorem enabledEvent_txReady (hs : a.seqState = .sent) (htx : a.env.txReady = true) :
    enabledEvent a = some .txReadyEvent := by
  simp [enabledEvent, hs, htx]

theorem enabledEvent_byte {b : Byte} {rest : List Byte} (hs : a.seqState = .awaitingFrame)
    (hsrc : a.env.source = b :: rest) : enabledEvent a = some (.byte8 a.rxState b) := by
  simp [enabledEvent, hs, hsrc]

theorem enabledEvent_tau (hs : a.seqState = .decoded) : enabledEvent a = some .tauEvent := by
  simp [enabledEvent, hs]

/-- No event is enabled in Idle, in Sent while the sink takes no byte, and in AwaitingFrame while none waits (R280). -/
theorem enabledEvent_eq_none (h : a.seqState = .idle ∨ (a.seqState = .sent ∧ a.env.txReady = false) ∨
    (a.seqState = .awaitingFrame ∧ a.env.source = [])) : enabledEvent a = none := by
  rcases h with hs | ⟨hs, htx⟩ | ⟨hs, hsrc⟩
  · simp [enabledEvent, hs]
  · simp [enabledEvent, hs, htx]
  · simp [enabledEvent, hs, hsrc]

/-- Of what is below the enabled events the oldest request comes first. -/
theorem pendingCode_request {q : Request} {rest : List Request} (hreqs : a.env.reqs = q :: rest) :
    pendingCode a = some (requestCode q) := by
  simp [pendingCode, hreqs]

end

/-- The code of a request runs EXCHANGE start with the three bytes as the host wrote them (R131, R261). -/
theorem runCode_requestCode (c : Config) (q : Request) (s : State) :
    runCode c (requestCode q) s = exchangeStart c q.cmd q.payload s := by
  obtain ⟨i, hi, hrun⟩ := requestCodeIsImmaterial c q.cmd q.payload s
  rw [runCode, requestCode, hi]
  exact hrun

/-- Settles O45: the order is that of `selectEvent`, and taking an event changes only how that event is presented. -/
theorem eventPriority : Obligations.EventPriority := by
  rintro s a rfl
  refine ⟨fun hr => step_of_decode (selectEvent_reset hr) rfl,
    fun hr hd => step_of_decode (selectEvent_deadline hr hd) rfl,
    fun hr hd => ⟨fun hs htx => ?_, fun b rest hs hsrc => ?_, fun hs => ?_, fun q rest hreqs hidle => ?_⟩⟩
  · exact step_of_decode (selectEvent_enabled hr hd (enabledEvent_txReady hs htx)) rfl
  · rw [step_of_decode (selectEvent_enabled hr hd (enabledEvent_byte hs hsrc)) rfl, State.take, Env.take, hsrc,
      List.tail_cons]
  · exact step_of_decode (selectEvent_enabled hr hd (enabledEvent_tau hs)) rfl
  · have hsel := (selectEvent_pending hr hd (enabledEvent_eq_none hidle)).trans (pendingCode_request hreqs)
    rw [step_eq_stepWith, stepWith_of_event hsel, runCode_requestCode, State.take, requestCode, Env.take, hreqs,
      List.tail_cons]
    rfl

/-! ## From Idle (R275) -/

/-- No enabled event is a request (R280). -/
theorem enabledEvent_ne_cmd24 {a : State} {w : BitVec 24} {u : CmdUse} : enabledEvent a ≠ some (.cmd24 w u) := by
  unfold enabledEvent
  repeat' split
  all_goals simp

/-- The code of a request is chosen only for the oldest request presented, which is then taken (R356). -/
theorem exists_request_of_selectEvent {a : State} {w : BitVec 24} {p : Payload}
    (h : selectEvent a = some (.cmd24 w (.request p))) :
    ∃ q, Code.cmd24 w (.request p) = requestCode q ∧ a.env.reqs = q :: a.env.reqs.tail := by
  have hpending : pendingCode a = some (.cmd24 w (.request p)) := by
    unfold selectEvent at h
    split at h
    · cases h
    · split at h
      · cases h
      · exact (Option.or_eq_some_iff.mp h).resolve_left enabledEvent_ne_cmd24 |>.2
  cases hreqs : a.env.reqs with
  | cons q rest =>
    exact ⟨q, Option.some.inj (hpending.symm.trans (pendingCode_request hreqs)), rfl⟩
  | nil =>
    cases hprobe : a.env.probe with
    | some pr =>
      simp only [pendingCode, hreqs, hprobe] at hpending
      cases pr <;> cases hpending
    | none =>
      simp only [pendingCode, hreqs, hprobe] at hpending
      split at hpending <;> cases hpending

/-- In Idle a request is refused, or starts its exchange (R261). -/
theorem exchangeStart_of_idle {c : Config} {k : Cmd} {p : Payload} {s t : State} (hs : s.seqState = .idle)
    (h : exchangeStart c k p s = .next t) :
    t = s.withOutput (some (.refused .payloadTooLong)) ∨
      ExchangeStarted (upperCmd k) (frameBytes (upperCmd k) (dataBytes p)) s t := by
  rcases Nat.lt_or_ge c.txMaxData (dataBytes p).length with hlong | hfits
  · exact .inl (Host.Outcome.next.inj (h.symm.trans (exchangeStart_tooLong k hs hlong)))
  · obtain ⟨u, hstarted, hu⟩ := exchangeStart_started k hs hfits
    obtain rfl := Host.Outcome.next.inj (h.symm.trans hu)
    exact .inr hstarted

/-- A step from Idle stays there and ends no exchange, or starts the exchange of the oldest request. -/
theorem stepWith_of_idle {c : Config} {s t : State} (hs : s.seqState = .idle) (h : stepWith c s = .next t) :
    t.env.output ≠ some .done ∧
    (t.seqState = .idle ∨
      (t.seqState = .sent ∧ ∃ q, s.arrive.env.reqs = q :: t.env.reqs ∧ t.lastCmd = upperCmd q.cmd)) := by
  cases hx : selectEvent s.arrive with
  | none =>
    obtain rfl := Host.Outcome.next.inj ((stepWith_of_no_event hx).symm.trans h)
    exact ⟨by simp, .inl hs⟩
  | some x =>
    rw [stepWith_of_event hx] at h
    cases selected_of_selectEvent hx with
    | reset =>
      obtain rfl := Host.Outcome.next.inj ((runCode_reset c _).symm.trans h)
      exact ⟨by simp, .inl rfl⟩
    | deadline =>
      rw [runCode_deadline, deadlineExpired_eq, if_neg (by simp [hs])] at h
      obtain rfl := Host.Outcome.next.inj h
      exact ⟨by simp, .inl hs⟩
    | txReady =>
      rw [runCode_txReady, transmitByte_not_sent (by simp [hs])] at h
      obtain rfl := Host.Outcome.next.inj h
      exact ⟨by simp, .inl hs⟩
    | byte b rest hseq _ => exact absurd (hs.symm.trans hseq) nofun
    | tau hseq => exact absurd (hs.symm.trans hseq) nofun
    | request w p =>
      obtain ⟨q, hq, hreqs⟩ := exists_request_of_selectEvent hx
      rw [hq, runCode_requestCode] at h
      rcases exchangeStart_of_idle (s := s.arrive.take (requestCode q)) hs h with rfl | ⟨hstate, -⟩
      · exact ⟨by simp, .inl hs⟩
      · rw [hstate]
        exact ⟨nofun, .inr ⟨rfl, q, hreqs, rfl⟩⟩
    | probe p =>
      obtain ⟨o, hdone, ho⟩ := onlyAnswers_probe c p
      obtain rfl := Host.Outcome.next.inj ((ho _).symm.trans h)
      exact ⟨hdone, .inl hs⟩

/-- Settles O54: the source is taken from in AwaitingFrame only and the sink is written in Sent only, and a step from
Idle moves on with a request only. -/
theorem nothingHappensWithoutARequest : Obligations.NothingHappensWithoutARequest := by
  intro c s t hs h
  obtain ⟨hdone, hseq⟩ := stepWith_of_idle hs h
  have hsource := (sourceTakenOnlyInAwaitingFrame c s t h).resolve_right (by simp [hs])
  obtain ⟨hsink, -⟩ := (sinkWrittenOnlyInSent c s t h).resolve_right (by simp [hs])
  exact ⟨hsource, hsink, hdone, hseq⟩

/-! ## A whole exchange (R260, R283) -/

/-- The letters of a catalog code are lowercase (R228). -/
theorem catalog_code_letters {c : Config} (hc : c.wf = true) {r : CatalogRow} (hr : r ∈ c.catalog) :
    ∀ b ∈ r.code.toList, isLowerLetter b = true := by
  simp only [Config.wf, Config.catalogOk, Bool.and_eq_true, List.all_eq_true] at hc
  obtain ⟨⟨-, ⟨hrows, -⟩, -⟩, -⟩ := hc
  obtain ⟨⟨⟨⟨⟨h0, h1⟩, h2⟩, -⟩, -⟩, -⟩ := hrows r hr
  simp [Cmd.toList, h0, h1, h2]

/-- A hex character is no control character (R99). -/
theorem hexChar_ge {d : Nat} (h : d < 16) : 0x30 ≤ (hexChar d).toNat := by
  rw [toNat_hexChar h]
  split <;> omega

theorem hexWord_ge (w : Word) : ∀ b ∈ hexWord w, 0x30 ≤ b.toNat := by
  simp [hexWord, hexChar_ge (nibble_lt _ _)]

theorem hexPair_ge (v : Byte) : ∀ b ∈ (hexPair v).toList, 0x30 ≤ b.toNat := by
  simp [hexPair, CharPair.toList, hexChar_ge (nibble_lt _ _)]

/-- The checksum is computed over the body of a frame (R95). -/
theorem slice_frameBytes_body (k : Cmd) (d : List Byte) :
    slice (frameBytes k d) 0 ((frameBytes k d).length - 3) = frameBody k d := by
  rw [frameBytes_eq_framed, framed_length, show 8 + d.length - 3 = 5 + d.length by omega, slice_framed_body]
  rfl

/-- A frame whose CMD and DATA hold no ETX, and that fits the buffer, is received whole: one READFRAME for each byte
(R165). -/
theorem run_readframes_frame {c : Config} {s : State} {k : Cmd} {d rest : List Byte} (hs : s.seqState = .awaitingFrame)
    (hr : s.rxState = .awaitingStart) (hlen : s.rxLen = 0) (hovf : s.rxOvf = false) (hetx : ETX ∉ k.toList ++ d)
    (hfits : 8 + d.length ≤ c.rxCap) (hsrc : s.env.source = frameBytes k d ++ rest) :
    ∃ t, execRun c (List.replicate (8 + d.length) .readframe) s = some t ∧ HoldsFrame c.rxCap t (frameBytes k d) ∧
      t = { s with
        rxBuf := t.rxBuf
        rxLen := 8 + d.length
        seqState := .decoded
        env := { s.env with source := rest, output := none } } := by
  have hcr : CR ∉ (hexPair (chk (frameBody k d))).toList := fun h => absurd (hexPair_ge _ CR h) (by decide)
  have hframe : frameBytes k d = [] ++ [0x02] ++ (k.toList ++ d) ++ [0x03] ++
      (hexPair (chk (frameBody k d))).toList ++ [0x0D] := by
    simp [frameBytes, frameBody, STX, ETX, CR]
  have hcount : 8 + d.length = 0 + (k.toList ++ d).length + 2 + 3 := by
    simp [Cmd.toList]
    omega
  obtain ⟨-, t, hrun, ht, hread⟩ :=
    readframeDelivers c s [] (k.toList ++ d) (hexPair (chk (frameBody k d))).toList rest (frameBytes k d)
      hs hr hlen hovf List.not_mem_nil hetx hcr (by rw [hsrc, hframe]) (by rw [ite_self, hframe])
  rw [frameBytes_length, Nat.min_eq_left hfits] at ht hread
  rw [decide_eq_false (not_lt.mpr hfits), ← hovf] at ht
  refine ⟨t, hcount ▸ hrun, ⟨?_, ?_, fun i hi => ?_⟩, ht⟩
  · rw [frameBytes_length]
    exact congrArg State.rxLen ht
  · rwa [frameBytes_length]
  · rw [hread, if_pos (frameBytes_length k d ▸ hi)]

/-- One run after another. -/
theorem execRun_trans {c : Config} {is js : List Instr} {s t u : State} (hfirst : execRun c is s = some t)
    (hsecond : execRun c js t = some u) : execRun c (is ++ js) s = some u := by
  rw [execRun_append, hfirst, Option.bind_some, hsecond]

/-- The request of the command `k` has gone to the sink, and the block awaits the first byte of the answer. -/
structure RequestSent (k : Cmd) (sink src : List Byte) (s : State) : Prop where
  awaiting : s.seqState = .awaitingFrame
  atStart : s.rxState = .awaitingStart
  empty : s.rxLen = 0
  noOvf : s.rxOvf = false
  last : s.lastCmd = upperCmd k
  cleared : s.res = Result.zero
  sink : s.env.sink = sink
  source : s.env.source = src

/-- EXCHANGE and a SEND for each byte of the request (R137, R262). -/
theorem run_request {c : Config} {s : State} (k : Cmd) {p : Payload} (hs : s.seqState = .idle)
    (hp : (dataBytes p).length ≤ c.txMaxData) :
    ∃ t, execRun c ([.exchange k p] ++ List.replicate (8 + (dataBytes p).length) .send) s = some t ∧
      RequestSent k (s.env.sink ++ frameBytes (upperCmd k) (dataBytes p)) s.env.source t := by
  obtain ⟨u, ⟨hstate, -⟩, hu⟩ := exchangeStart_started k hs hp
  obtain ⟨-, hsends⟩ := wholeRequestIsSent c k p s u hs hp hu
  have hexchange : execRun c [.exchange k p] s = some u := by simp only [execRun, execWith, execExchange, hu]
  exact ⟨_, execRun_trans hexchange hsends,
    { awaiting := rfl
      atStart := congrArg State.rxState hstate
      empty := congrArg State.rxLen hstate
      noOvf := congrArg State.rxOvf hstate
      last := congrArg State.lastCmd hstate
      cleared := congrArg State.res hstate
      sink := rfl
      source := congrArg (fun v => v.env.source) hstate }⟩

/-- The result registers of an exchange that the frame of `k` with the words `ws` answered (R197, R272). -/
def wordsDelivered (k : Cmd) (ws : List Word) : Result :=
  { Result.zero with
    kind := .success
    cmd := k
    nwords := ws.length
    words := resWordsOf ws
    expLen := 8 + 4 * ws.length
    actLen := 8 + 4 * ws.length
    chkCalc := hexPair (chk (frameBody k (ws.flatMap hexWord)))
    chkRecv := hexPair (chk (frameBody k (ws.flatMap hexWord))) }

/-- The outcome of the frame of the command requested, from cleared registers (R272). -/
theorem outcome_frameBytes_words {c : Config} (hc : c.wf = true) {r : CatalogRow} (hr : r ∈ c.catalog)
    (hk : r.code ≠ sentinel) {last : Cmd} (hlast : r.code = lowerCmd last) {ws : List Word}
    (hws : 4 * ws.length = r.size) :
    outcome c last (decodeFrame c (frameBytes r.code (ws.flatMap hexWord)) false) Result.zero =
      wordsDelivered r.code ws := by
  have hok := decodeFrame_frameBytes_words hc hr (lowerCmd_of_mem hc hr) hws
  rw [outcome_of_success _ hok hk (fun _ => hlast), decodeFrame_of_ok hok, chkField_frameBytes, slice_frameBytes_body,
    frameBytes_length, flatMap_hexWord_length]
  rfl

/-- A READFRAME for each byte of the answer, and CLASSIFY (R165, R272). -/
theorem run_answer {c : Config} (hc : c.wf = true) {r : CatalogRow} (hr : r ∈ c.catalog) (hne : r.code ≠ sentinel)
    {k : Cmd} (hk : lowerCmd k = r.code) {ws : List Word} (hws : 4 * ws.length = r.size) {sink rest : List Byte}
    {s : State} (h : RequestSent k sink (frameBytes r.code (ws.flatMap hexWord) ++ rest) s) :
    ∃ u t, execRun c (List.replicate (8 + r.size) .readframe) s = some u ∧ execWith c .classify u = .next t ∧
      ExchangeEnded (wordsDelivered r.code ws) u t ∧ u.env.sink = sink ∧ u.env.source = rest := by
  obtain ⟨-, -, hfits⟩ := catalog_bounds hc hr
  have hsize : (ws.flatMap hexWord).length = r.size := (flatMap_hexWord_length ws).trans hws
  have hetx : ETX ∉ r.code.toList ++ ws.flatMap hexWord := by
    rw [List.mem_append, List.mem_flatMap]
    rintro (hcode | ⟨w, -, hword⟩)
    · exact absurd (catalog_code_letters hc hr ETX hcode) (by decide)
    · exact absurd (hexWord_ge w ETX hword) (by decide)
  obtain ⟨u, hrun, hholds, hu⟩ :=
    run_readframes_frame (c := c) h.awaiting h.atStart h.empty h.noOvf hetx (hsize ▸ hfits) h.source
  rw [hsize] at hrun
  obtain ⟨t, ht, hended⟩ := classify_ends (congrArg State.seqState hu) hholds
  have hovf : u.rxOvf = false := (congrArg State.rxOvf hu).trans h.noOvf
  have hlast : u.lastCmd = upperCmd k := (congrArg State.lastCmd hu).trans h.last
  have hcleared : u.res = Result.zero := (congrArg State.res hu).trans h.cleared
  rw [hovf, hlast, hcleared, outcome_frameBytes_words hc hr hne (by rw [lowerCmd_upperCmd, hk]) hws] at hended
  exact ⟨u, t, hrun, ht, hended, (congrArg (fun v => v.env.sink) hu).trans h.sink,
    congrArg (fun v => v.env.source) hu⟩

/-- Settles O56: the request goes out, its answer is received, and CLASSIFY delivers the words. -/
theorem wholeExchangeDeliversTheWords : Obligations.WholeExchangeDeliversTheWords := by
  intro c r k p ws rest s hc hr hne hk hp hlen hs hsrc
  obtain ⟨hmod, -, -⟩ := catalog_bounds hc hr
  have hws : 4 * ws.length = r.size := by omega
  obtain ⟨u, hrequest, hsent⟩ := run_request k hs hp
  rw [hsrc] at hsent
  obtain ⟨v, t, hanswer, hclassify, hended, hsink, hsource⟩ := run_answer hc hr hne hk hws hsent
  refine ⟨t, execRun_concat (execRun_trans hrequest hanswer) hclassify, ?_⟩
  rw [hended, ← hws]
  exact ⟨rfl, rfl, rfl, hsink, hsource, rfl⟩

end Sys2Proof.Machine

/-! PROOFS. The host's operations over the block: the conversions, the flags of the status word, the power setters, and
the validation of parameters before any request. -/

namespace Sys2Proof.Machine

/-! ## Unit conversion (R301 to R303, R307) -/

section
variable {f : ConversionFactor} (raw : Word)

/-- `rawVoltage` undoes `toVoltage` (R301). -/
theorem rawVoltage_toVoltage (h : f.voltage ≠ 0) : rawVoltage f (toVoltage f raw) = raw.toNat :=
  mul_div_cancel_right₀ _ h

/-- `rawCurrent` undoes `toCurrent` (R302). -/
theorem rawCurrent_toCurrent (h : f.current ≠ 0) : rawCurrent f (toCurrent f raw) = raw.toNat :=
  mul_div_cancel_right₀ _ h

/-- `rawTemperature` undoes `toTemperature` (R303). -/
theorem rawTemperature_toTemperature (hgain : f.temperatureGain ≠ 0) (hdiv : f.temperatureDivisor ≠ 0) :
    rawTemperature f (toTemperature f raw) = raw.toNat := by
  rw [rawTemperature, toTemperature, div_mul_cancel₀ _ hdiv, sub_add_cancel, mul_div_cancel_right₀ _ hgain]

end

/-- Factors with inverses give the number of the raw word back, which `ROUND` fixes (R307). -/
theorem unitRoundTrip_of_factorsInvertible {c : Config} (h : FactorsInvertible c.factors) : UnitRoundTrip c := by
  obtain ⟨hvoltage, hcurrent, hgain, hdiv⟩ := h
  intro raw
  rw [rawVoltage_toVoltage raw hvoltage, rawCurrent_toCurrent raw hcurrent,
    rawTemperature_toTemperature raw hgain hdiv]
  exact ⟨roundToWord_toNat c raw, roundToWord_toNat c raw, roundToWord_toNat c raw⟩

/-- Settles O57: the conversions are undone by their inverses, and the source's factors have inverses. -/
theorem unitConversionRoundTrip : Obligations.UnitConversionRoundTrip :=
  ⟨fun _ => unitRoundTrip_of_factorsInvertible, witness_UnitConversionRoundTrip, fun _ => ⟨rfl, rfl, rfl⟩⟩

/-! ## Power function (R317 to R322) -/

/-- A set code is read back as the two fields it was made of (R318, R319; D36, log entry 15). -/
theorem decodePower_setCode (v p : Bool) :
    decodePower (setCode v p) =
      (if p then .automaticRestoration else .notInUse, if v then .effectiveness else .invalid) := by
  cases v <;> cases p <;> rfl

/-- The words 0 to 3 are the set codes (R318, R319). -/
theorem exists_eq_setCode {w : Word} (h : w.toNat < 4) : ∃ v p, w = setCode v p := by
  have hcodes : ∀ n < 4, ∃ v p, BitVec.ofNat 16 n = setCode v p := by decide
  simpa using hcodes w.toNat h

/-- A word outside 0 to 3 is an error in both fields (R318). -/
theorem decodePower_of_four_le {w : Word} (h : 4 ≤ w.toNat) :
    decodePower w = (.errorInResponseData, .errorInResponseData) := by
  unfold decodePower
  split
  case h_5 => rfl
  all_goals omega

section
variable (c : Config) {ws : ResWords} (on : Bool)

/-- Neither power setter goes on from a word outside 0 to 3 (R320 to R322). -/
theorem ambiguousPrerequisiteFails : AmbiguousPrerequisiteFails c := by
  intro ws on h
  simp [hostContinue, decodePower_of_four_le h]

/-- setOverCurrentProtection sends the code with its own field and the other one as read (R320). -/
theorem hostContinue_setOverCurrentProtection {v p : Bool} (h : ws.w0 = setCode v p) :
    hostContinue c (.query (.setOverCurrentProtection on)) ws =
      .issue ⟨codeHSC, .word (setCode v on)⟩ (.last (.setOverCurrentProtection on)) := by
  cases v <;> simp [hostContinue, h, decodePower_setCode]

/-- setOutputVoltageControlFunction sends the code with its own field and the other one as read (R321). -/
theorem hostContinue_setOutputVoltageControlFunction {v p : Bool} (h : ws.w0 = setCode v p) :
    hostContinue c (.query (.setOutputVoltageControlFunction on)) ws =
      .issue ⟨codeHSC, .word (setCode on p)⟩ (.last (.setOutputVoltageControlFunction on)) := by
  cases p <;> simp [hostContinue, h, decodePower_setCode]

end

/-- Settles O59: a word from 0 to 3 is a set code, of which a setter replaces its own field. -/
theorem powerSettersPreserveTheOtherField : Obligations.PowerSettersPreserveTheOtherField := by
  refine fun c => ⟨ambiguousPrerequisiteFails c, fun ws on h => ?_⟩
  obtain ⟨v, p, hw⟩ := exists_eq_setCode h
  have hread := decodePower_setCode v p
  rw [← hw] at hread
  refine ⟨⟨_, hostContinue_setOverCurrentProtection c on hw, ?_⟩,
    ⟨_, hostContinue_setOutputVoltageControlFunction c on hw, ?_⟩⟩ <;>
  rw [decodePower_setCode, hread]

/-! ## Validation (R308, R309, R314, R316) -/

section
variable (c : Config)

/-- setReferenceVoltage begins with its range check (R314). -/
theorem hostBegin_setReferenceVoltage (v : ℚ) :
    hostBegin c (.setReferenceVoltage v) =
      if 0 ≤ v ∧ v ≤ 65535 * c.factors.voltage then
        .issue ⟨codeHBV, .word (roundToWord c (rawVoltage c.factors v))⟩ (.last (.setReferenceVoltage v))
      else .fail .validation := rfl

/-- setTemperatureCorrectionFactor begins with its range check (R316). -/
theorem hostBegin_setTemperatureCorrectionFactor (a b x y tb : ℚ) :
    hostBegin c (.setTemperatureCorrectionFactor a b x y tb) =
      if correctionInRange c a b x y tb then
        .issue ⟨c.vbQuery.cmd, .raw c.vbQuery.payload⟩ (.query (.setTemperatureCorrectionFactor a b x y tb))
      else .fail .validation := rfl

/-- Both range checks come before any request (R309). -/
theorem validatesBeforeIO : ValidatesBeforeIO c := by
  refine ⟨fun v hv => ?_, fun a b x y tb hout => ?_⟩
  · have hout : ¬(0 ≤ v ∧ v ≤ 65535 * c.factors.voltage) := by
      rintro ⟨hlow, hhigh⟩
      exact hv.elim hlow.not_gt hhigh.not_gt
    rw [hostBegin_setReferenceVoltage, if_neg hout]
  · simp [hostBegin_setTemperatureCorrectionFactor, hout]

end

/-- The ends of the temperature range with the source's literals: the divisor is negative, so the raw word 0 gives
the upper one (R303, R316). -/
theorem toTemperature_source_ends :
    toTemperature ConversionFactor.source 0 = 2070 / 11 ∧
    toTemperature ConversionFactor.source 0xFFFF = -(21475245 / 550000) := by
  have hzero : (0 : Word).toNat = 0 := rfl
  have hmax : (0xFFFF : Word).toNat = 65535 := rfl
  norm_num [toTemperature, hzero, hmax, ConversionFactor.source]

section
variable {c : Config} (hfactors : c.factors = ConversionFactor.source)
  (hbounds : c.bounds = CorrectionBounds.source)
include hfactors hbounds

/-- The range of the slopes with the source's literals (R308, R316). -/
theorem slopeInRange_source (x : ℚ) :
    correctionInRange.slope c x = true ↔ x ∈ Set.Icc (1507 / 1000 : ℚ) (97255752 / 1000000) := by
  have hlow : (0x03E8 : Word).toNat = 1000 := rfl
  have hhigh : (0xFC18 : Word).toNat = 64536 := rfl
  norm_num [correctionInRange.slope, hfactors, hbounds, ConversionFactor.source,
    CorrectionBounds.source, hlow, hhigh]

/-- The range of the first-order parameters with the source's literals (R308, R316). -/
theorem firstOrderInRange_source (x : ℚ) :
    correctionInRange.firstOrder c x = true ↔ x ∈ Set.Icc (0 : ℚ) (21396375 / 100000) := by
  have hlow : (0x0000 : Word).toNat = 0 := rfl
  have hhigh : (0x0FFF : Word).toNat = 4095 := rfl
  norm_num [correctionInRange.firstOrder, hfactors, hbounds, ConversionFactor.source,
    CorrectionBounds.source, hlow, hhigh]

/-- The ranges of R316 in figures. -/
theorem correctionInRange_source (a b x y tb : ℚ) :
    correctionInRange c a b x y tb = true ↔
      a ∈ Set.Icc (1507 / 1000 : ℚ) (97255752 / 1000000) ∧ b ∈ Set.Icc (1507 / 1000 : ℚ) (97255752 / 1000000) ∧
      x ∈ Set.Icc (0 : ℚ) (21396375 / 100000) ∧ y ∈ Set.Icc (0 : ℚ) (21396375 / 100000) ∧
      tb ∈ Set.Icc (-(21475245 / 550000) : ℚ) (2070 / 11) := by
  obtain ⟨hupper, hlower⟩ := toTemperature_source_ends
  have hends : -(21475245 / 550000) ≤ (2070 / 11 : ℚ) := by norm_num
  simp only [correctionInRange, Bool.and_eq_true, decide_eq_true_eq, slopeInRange_source hfactors hbounds,
    firstOrderInRange_source hfactors hbounds, hfactors, hupper, hlower, min_eq_right hends, max_eq_left hends,
    and_assoc]
  rfl

end

/-- Settles O60: the range check decides the first action, and its bounds are the figures of R314 and R316. -/
theorem validationBeforeIO : Obligations.ValidationBeforeIO := by
  refine fun c => ⟨validatesBeforeIO c, fun v hlow hhigh => ?_, fun hfactors hbounds => ⟨?_, ?_, ?_⟩⟩
  · exact ⟨_, (hostBegin_setReferenceVoltage c v).trans (if_pos ⟨hlow, hhigh⟩)⟩
  · norm_num [hfactors, ConversionFactor.source]
  · rintro a b x y tb ⟨ha, ha', hb, hb', hx, hx', hy, hy', htb, htb'⟩
    rw [hostBegin_setTemperatureCorrectionFactor, if_pos]
    exact (correctionInRange_source hfactors hbounds a b x y tb).mpr
      ⟨⟨ha, ha'⟩, ⟨hb, hb'⟩, ⟨hx, hx'⟩, ⟨hy, hy'⟩, htb, htb'⟩
  · intro a b x y tb hout
    rw [hostBegin_setTemperatureCorrectionFactor, if_neg]
    intro hin
    obtain ⟨⟨ha, ha'⟩, ⟨hb, hb'⟩, ⟨hx, hx'⟩, ⟨hy, hy'⟩, htb, htb'⟩ :=
      (correctionInRange_source hfactors hbounds a b x y tb).mp hin
    rcases hout with h | h | h | h | h | h | h | h | h | h <;> linarith

/-! ## Status (R310, R311) -/

/-- A bit of a word is a digit of its number (R12). -/
theorem getLsbD_eq_true_iff (w : Word) (i : Nat) : w.getLsbD i = true ↔ w.toNat / 2 ^ i % 2 = 1 := by
  rw [BitVec.getLsbD, Nat.testBit_eq_decide_div_mod_eq, decide_eq_true_eq]

/-- A flag that is true when its bit is clear (R310). -/
theorem not_getLsbD_eq_true_iff (w : Word) (i : Nat) : (!w.getLsbD i) = true ↔ w.toNat / 2 ^ i % 2 = 0 := by
  rw [Bool.not_eq_true', ← Bool.not_eq_true, getLsbD_eq_true_iff, Nat.mod_two_not_eq_one]

theorem statusDecomposition : StatusDecomposition := fun w =>
  ⟨getLsbD_eq_true_iff w 0, getLsbD_eq_true_iff w 1, not_getLsbD_eq_true_iff w 2, not_getLsbD_eq_true_iff w 3,
    not_getLsbD_eq_true_iff w 4, not_getLsbD_eq_true_iff w 6⟩

/-- The flags read the bits 0 to 4 and 6 only (R311). -/
theorem decodeStatus_and_mask (w : Word) : decodeStatus (w &&& 0x005F) = decodeStatus w := by
  simp [decodeStatus]

/-- getStatus ends with the flags of the first word of the answer to HGS (R304, R310). -/
theorem hostResume_getStatus (c : Config) {r : Result} (hkind : r.kind = .success)
    (hcmd : r.cmd = ⟨0x68, 0x67, 0x73⟩) (hwords : r.nwords = 1) :
    hostResume c (.last .getStatus) r = .finish (.status (decodeStatus r.words.w0)) := by
  have hecho : r.cmd = lowerCmd codeHGS := by rw [hcmd]; decide
  exact (hostResume_success hkind).trans (if_pos ⟨hecho, hwords.ge⟩)

/-- Settles O58: each flag is its bit, the mask keeps the bits read, and the word is the one of the answer to HGS. -/
theorem statusFlagsRead : Obligations.StatusFlagsRead := by
  refine ⟨statusDecomposition, fun v w h => ?_, rfl, rfl, rfl, fun _ => rfl, fun c _ => hostResume_getStatus c⟩
  rw [← decodeStatus_and_mask v, h, decodeStatus_and_mask]

end Sys2Proof.Machine
